-- ==== Sys2Proof/Word.lean ====
section
/-! DEFINITION. The word types of the block: the 64-bit slot of the register port and the 8-bit rule number. -/

namespace Sys2Proof

/-- The contents of one 64-bit slot of the register port (`20_memory.md` R71, R73). A W-bit register or RAM entry
occupies bits [W-1:0] of its slot and bits [63:W] read as 0 (`10_state.md` R44), so a W-bit value is held as its
whole slot, its upper bits zero (log 2). -/
abbrev Word := BitVec 64

/-- A rule number, an 8-bit value with one bit per neighbourhood pattern (`00_scope.md` R20, `30_encoding.md` R106). -/
abbrev Rule := BitVec 8

end Sys2Proof
end

