-- ==== Sys2Proof/Config.lean ====
section
/-! DEFINITION. What one synthesis of the block fixes (its parameters W and RMAX), and the values the spec leaves
free: constants with no body, of which nothing can be proved but that they exist. -/

namespace Sys2Proof

/-- The word width W, a synthesis parameter with W in 16, 32, 64 (`00_scope.md` R7). -/
inductive Width where
  | w16
  | w32
  | w64
deriving DecidableEq, Repr

/-- W as a number of bits (`00_scope.md` R7). -/
def Width.bits : Width → Nat
  | .w16 => 16
  | .w32 => 32
  | .w64 => 64

/-- The synthesis parameters of one instance, the complete list (`00_scope.md` R12). RMAX is held as
`rmaxPred + 1`, so that 1 ≤ RMAX ≤ 128 (R9) is part of the type. -/
structure Params where
  width : Width
  rmaxPred : Fin 128
deriving DecidableEq, Repr

/-- RMAX, the largest round count the instance supports, 1 to 128 (`00_scope.md` R9). -/
def Params.rmax (p : Params) : Nat := p.rmaxPred.val + 1

/-- The instance that `State.reset` is of: RMAX = 32, "the default" of `00_scope.md` R9, and W = 64
(DESIGN CHOICE, log 1: the spec gives W no default). -/
def Params.default : Params := ⟨.w64, 31⟩

/-- The two RAMs of `10_state.md` R45 and R46. -/
inductive RamBank where
  | key
  | rk
deriving DecidableEq, Repr

/-- FREE VALUE (log 3): what entry `index` of a RAM holds after the reset number `epoch`, until it is written
(`10_state.md` R47: "some W-bit value that stays the same until it is written, but no rule says which"). -/
opaque Config.ramDraw (epoch : Nat) (bank : RamBank) (index : Nat) : Word

/-- FREE VALUE (log 4): what the `n`-th read of a running command's write set returns
(`70_reset_and_hazards.md` R271: "returns an unspecified value"). -/
opaque Config.busyRead (n : Nat) : Word

/-- FREE VALUE (log 5): LAT of a command less one clock cycle, a function of what `70_reset_and_hazards.md` R276
lets it depend on: the opcode, W, and for some commands R and KEYLEN. -/
opaque Config.latencyExtra (opcode : Nat) (width : Width) (rounds keylen : Nat) : Nat

end Sys2Proof
end

