-- ==== Sys2Proof/Syntax.lean ====
section
/-! DEFINITION. The command set: one constructor per row of spec/opcode_table.json. -/

namespace Sys2Proof

/-- The half a command names by its H field: `H[0]` is HA and `H[1]` is HB (`00_scope.md` R16, `30_encoding.md` R106). -/
inductive Half where
  | A
  | B
deriving DecidableEq, Repr

/-- The boundary policy of CASTEP's BND field: 0 = Periodic, 1 = Zero (`30_encoding.md` R104). -/
inductive Boundary where
  | periodic
  | zero
deriving DecidableEq, Repr

/-- The output order of MSTORE's ORD field: 0 = encrypt order, 1 = decrypt order (`42_meca.md` R152). -/
inductive StoreOrder where
  | encrypt
  | decrypt
deriving DecidableEq, Repr

/-- The 16 commands (`00_scope.md` R3, `30_encoding.md` R107). A key index is a number (an index into RK[]);
its range 0 to 255 is checked in `WellFormed` (R106, R118). -/
inductive Instr where
  /-- `NOP` (`46_control.md` R220). -/
  | nop
  /-- `NBIDX l, c, r` (`40_neighborhood.md` R132). -/
  | nbidx (l c r : Bool)
  /-- `RULEBIT rule, l, c, r` (`40_neighborhood.md` R133). -/
  | rulebit (rule : Rule) (l c r : Bool)
  /-- `CASTEP rule, P` and `CASTEP rule, Z` (`41_elementary_ca.md` R143). -/
  | castep (rule : Rule) (bnd : Boundary)
  /-- `MLOAD h, FWD` (`rev = false`) and `MLOAD h, REV` (`rev = true`) (`42_meca.md` R151). -/
  | mload (h : Half) (rev : Bool)
  /-- `MSTORE h, E` and `MSTORE h, D` (`42_meca.md` R152). -/
  | mstore (h : Half) (ord : StoreOrder)
  /-- `MXS h, kidx` (`42_meca.md` R154). -/
  | mxs (h : Half) (kidx : Nat)
  /-- `MXP h, kidx` (`42_meca.md` R155). -/
  | mxp (h : Half) (kidx : Nat)
  /-- `MSTEP h, rule` (`42_meca.md` R157). -/
  | mstep (h : Half) (rule : Rule)
  /-- `MSEL h` (`43_morph.md` R172). -/
  | msel (h : Half)
  /-- `MMORPH h` (`43_morph.md` R173). -/
  | mmorph (h : Half)
  /-- `KSRUN` (`44_key_schedule.md` R183). -/
  | ksrun
  /-- `ERND kidx` (`45_block_cipher.md` R201). -/
  | ernd (kidx : Nat)
  /-- `DRND kidx` (`45_block_cipher.md` R202). -/
  | drnd (kidx : Nat)
  /-- `ENC` (`45_block_cipher.md` R203). -/
  | enc
  /-- `DEC` (`45_block_cipher.md` R205). -/
  | dec
deriving DecidableEq, Repr

end Sys2Proof
end

