-- ==== Sys2Proof/WellFormed.lean ====
section
/-! DEFINITION. Which commands have an encoding: every operand in its field's range (`30_encoding.md` R118:
"An assembler refuses an operand out of its field's range (a rule or index above 255, a bit above 1)"). Rules and
bits are in range by their types; a key index is checked here. -/

namespace Sys2Proof

/-- A key index fits the 8-bit field KIDX (`30_encoding.md` R106: "0 to 255"). -/
def kidxFits (kidx : Nat) : Bool := decide (kidx < 256)

/-- The command has an encoding. -/
def Instr.wellFormed : Instr → Bool
  | .nop => true
  | .nbidx _ _ _ => true
  | .rulebit _ _ _ _ => true
  | .castep _ _ => true
  | .mload _ _ => true
  | .mstore _ _ => true
  | .mxs _ kidx => kidxFits kidx
  | .mxp _ kidx => kidxFits kidx
  | .mstep _ _ => true
  | .msel _ => true
  | .mmorph _ => true
  | .ksrun => true
  | .ernd kidx => kidxFits kidx
  | .drnd kidx => kidxFits kidx
  | .enc => true
  | .dec => true

end Sys2Proof
end

