-- ==== Sys2Proof/Decode.lean ====
section
/-! DEFINITION. Decoding a 64-bit value written to CMD, and the encoder of `30_encoding.md` R118. Decoding is total:
every value is a legal word of one row of R107, or is refused by one of the two decode checks of R112. -/

namespace Sys2Proof

/-- Why a value written to CMD is no command: check 1 or check 2 of `30_encoding.md` R112. -/
inductive DecodeError where
  /-- CMD[7:0] is not an opcode of R107 (`30_encoding.md` R109). -/
  | undefinedOpcode
  /-- A bit that must be 0 is 1 (`30_encoding.md` R108). -/
  | reservedBits
deriving DecidableEq, Repr

/-- OP = CMD[7:0] (`30_encoding.md` R101). -/
def opField (v : Word) : Nat := (v.extractLsb' 0 8).toNat

/-- RULE = CMD[15:8], the rule number (`30_encoding.md` R106). -/
def ruleField (v : Word) : Rule := v.extractLsb' 8 8

/-- KIDX = CMD[15:8], an index into RK[] (`30_encoding.md` R106). -/
def kidxField (v : Word) : Nat := (v.extractLsb' 8 8).toNat

/-- The half CMD[16] names: `H[0]` = HA, `H[1]` = HB (`30_encoding.md` R106). -/
def halfField (v : Word) : Half := if v.getLsbD 16 then .B else .A

/-- BND = CMD[17] of CASTEP: 0 = Periodic, 1 = Zero (`30_encoding.md` R104). -/
def bndField (v : Word) : Boundary := if v.getLsbD 17 then .zero else .periodic

/-- ORD = CMD[17] of MSTORE: 0 = encrypt order, 1 = decrypt order (`30_encoding.md` R106). -/
def ordField (v : Word) : StoreOrder := if v.getLsbD 17 then .decrypt else .encrypt

/-- The `mask` of an opcode's row in spec/opcode_table.json: the bits of the 64-bit value that are fixed. The row's
`match` has the opcode in bits [7:0] and 0 elsewhere. `none` for an undefined opcode (`30_encoding.md` R107, R109). -/
def rowMask (op : Nat) : Option Word :=
  match op with
  | 0x00 => some 0xFFFFFFFFFFFFFFFF
  | 0x01 => some 0xFFFFFFFFFFF8FFFF
  | 0x02 => some 0xFFFFFFFFFFF800FF
  | 0x03 => some 0xFFFFFFFFFFFD00FF
  | 0x10 => some 0xFFFFFFFFFFFCFFFF
  | 0x11 => some 0xFFFFFFFFFFFCFFFF
  | 0x12 => some 0xFFFFFFFFFFFE00FF
  | 0x13 => some 0xFFFFFFFFFFFE00FF
  | 0x14 => some 0xFFFFFFFFFFFE00FF
  | 0x15 => some 0xFFFFFFFFFFFEFFFF
  | 0x16 => some 0xFFFFFFFFFFFEFFFF
  | 0x20 => some 0xFFFFFFFFFFFFFFFF
  | 0x30 => some 0xFFFFFFFFFFFF00FF
  | 0x31 => some 0xFFFFFFFFFFFF00FF
  | 0x32 => some 0xFFFFFFFFFFFFFFFF
  | 0x33 => some 0xFFFFFFFFFFFFFFFF
  | _ => none

/-- The command of a defined opcode, its operand fields pulled out of the word (`30_encoding.md` R102 to R107). -/
def buildInstr (op : Nat) (v : Word) : Option Instr :=
  match op with
  | 0x00 => some .nop
  | 0x01 => some (.nbidx (v.getLsbD 18) (v.getLsbD 17) (v.getLsbD 16))
  | 0x02 => some (.rulebit (ruleField v) (v.getLsbD 18) (v.getLsbD 17) (v.getLsbD 16))
  | 0x03 => some (.castep (ruleField v) (bndField v))
  | 0x10 => some (.mload (halfField v) (v.getLsbD 17))
  | 0x11 => some (.mstore (halfField v) (ordField v))
  | 0x12 => some (.mxs (halfField v) (kidxField v))
  | 0x13 => some (.mxp (halfField v) (kidxField v))
  | 0x14 => some (.mstep (halfField v) (ruleField v))
  | 0x15 => some (.msel (halfField v))
  | 0x16 => some (.mmorph (halfField v))
  | 0x20 => some .ksrun
  | 0x30 => some (.ernd (kidxField v))
  | 0x31 => some (.drnd (kidxField v))
  | 0x32 => some .enc
  | 0x33 => some .dec
  | _ => none

/-- Decode a 64-bit value written to CMD: checks 1 and 2 of `30_encoding.md` R112, in that order. A word of a defined
opcode is legal exactly when (v & mask) = match (R108). -/
def decode (v : Word) : Except DecodeError Instr :=
  match rowMask (opField v), buildInstr (opField v) v with
  | some mask, some i => if v &&& mask = BitVec.ofNat 64 (opField v) then .ok i else .error .reservedBits
  | _, _ => .error .undefinedOpcode

/-- The opcode of a command (`30_encoding.md` R107). -/
def Instr.opcode : Instr → Nat
  | .nop => 0x00
  | .nbidx _ _ _ => 0x01
  | .rulebit _ _ _ _ => 0x02
  | .castep _ _ => 0x03
  | .mload _ _ => 0x10
  | .mstore _ _ => 0x11
  | .mxs _ _ => 0x12
  | .mxp _ _ => 0x13
  | .mstep _ _ => 0x14
  | .msel _ => 0x15
  | .mmorph _ => 0x16
  | .ksrun => 0x20
  | .ernd _ => 0x30
  | .drnd _ => 0x31
  | .enc => 0x32
  | .dec => 0x33

/-- A one-bit field at bit position `pos`. -/
def bitAt (b : Bool) (pos : Nat) : Word := (if b then 1#64 else 0#64) <<< pos

/-- An 8-bit field at bits [15:8] (RULE, KIDX). -/
def imm8 (n : Nat) : Word := BitVec.ofNat 64 n <<< 8

/-- `h` of the assembler syntax: A is 0, B is 1 (`30_encoding.md` R118). -/
def Half.bit : Half → Bool
  | .A => false
  | .B => true

/-- `bnd` of the assembler syntax: P is 0, Z is 1 (`30_encoding.md` R118). -/
def Boundary.bit : Boundary → Bool
  | .periodic => false
  | .zero => true

/-- `ord` of the assembler syntax: E is 0, D is 1 (`30_encoding.md` R118). -/
def StoreOrder.bit : StoreOrder → Bool
  | .encrypt => false
  | .decrypt => true

/-- The word of a well-formed command, as a 64-bit CMD value: the encodings of `30_encoding.md` R118, CMD[63:32] = 0. -/
def encode : Instr → Word
  | .nop => 0x00
  | .nbidx l c r => 0x01 ||| bitAt l 18 ||| bitAt c 17 ||| bitAt r 16
  | .rulebit rule l c r => 0x02 ||| imm8 rule.toNat ||| bitAt l 18 ||| bitAt c 17 ||| bitAt r 16
  | .castep rule bnd => 0x03 ||| imm8 rule.toNat ||| bitAt bnd.bit 17
  | .mload h rev => 0x10 ||| bitAt h.bit 16 ||| bitAt rev 17
  | .mstore h ord => 0x11 ||| bitAt h.bit 16 ||| bitAt ord.bit 17
  | .mxs h kidx => 0x12 ||| imm8 kidx ||| bitAt h.bit 16
  | .mxp h kidx => 0x13 ||| imm8 kidx ||| bitAt h.bit 16
  | .mstep h rule => 0x14 ||| imm8 rule.toNat ||| bitAt h.bit 16
  | .msel h => 0x15 ||| bitAt h.bit 16
  | .mmorph h => 0x16 ||| bitAt h.bit 16
  | .ksrun => 0x20
  | .ernd kidx => 0x30 ||| imm8 kidx
  | .drnd kidx => 0x31 ||| imm8 kidx
  | .enc => 0x32
  | .dec => 0x33

/-- The host's question: the command the decoder reads from an instruction whose bits are `w`, `nbits` of them given
and every bit above them 0. A command is one 64-bit CMD value, bit 0 its least significant (`00_scope.md` R13,
`30_encoding.md` R100), so the word is laid out as that value itself (log 11). -/
def decodeTableWord (nbits w : Nat) : Option Instr :=
  match decode (BitVec.ofNat 64 (w % 2 ^ nbits)) with
  | .ok i => some i
  | .error _ => none

end Sys2Proof
end

