-- ==== Sys2Proof/Machine/State.lean ====
section
/-! DEFINITION. The state of one instance of the block as plain data, the reasons a step could stop, and the state
after reset (`10_state.md` R30 to R56). -/

namespace Sys2Proof.Machine

/-- The error codes of STATUS.ERR (`60_exceptions.md` R231). Codes 7 to 15 are never produced. -/
inductive ErrCode where
  /-- 0: no error since reset or the last ERRCLR. -/
  | none
  /-- 1: ERR_BUSY, a host write outside CTRL and STATUS while busy. -/
  | busy
  /-- 2: ERR_OPCODE, an undefined opcode. -/
  | opcode
  /-- 3: ERR_RESERVED, a bit that must be 0 is 1. -/
  | reserved
  /-- 4: ERR_ROUNDS, CFG.ROUNDS = 0 or above RMAX. -/
  | rounds
  /-- 5: ERR_KEYLEN, KEYLEN = 0 or above KMAX. -/
  | keylen
  /-- 6: ERR_KIDX, a key index outside RK[0..2*RMAX-1]. -/
  | kidx
deriving DecidableEq, Repr

/-- One second-order automaton: two consecutive generations (`10_state.md` R40). -/
structure HalfRegs where
  /-- the current generation -/
  state : Word
  /-- the generation before it -/
  prev : Word
deriving DecidableEq, Repr

/-- A RAM (KEY or RK): the entries written since the last reset, as (index, value) pairs with strictly rising indexes
(log 12). What an unlisted entry holds is `State.ramInitial` in Machine/Ops.lean. -/
abbrev Memory := List (Nat × Word)

/-- The canonical form of a RAM: strictly rising indexes. -/
def Memory.wf (m : Memory) : Bool := decide ((m.map Prod.fst).Pairwise (· < ·))

/-- The sequencer's working state of a KSRUN (`10_state.md` R54, `44_key_schedule.md` R183): the fill index, the
schedule S[] so far, the pass counter t, the slot indexes i and j, and the rule of the last pass. -/
structure KsWork where
  fill : Nat
  sched : List Word
  t : Nat
  i : Nat
  j : Nat
  last : Rule
deriving DecidableEq, Repr

/-- What the sequencer is doing (`10_state.md` R54): the accepted command, with the counters of a multi-step one. -/
inductive Task where
  /-- a command of one step -/
  | unit (op : Instr)
  /-- ENC, with its round counter `rnd` and key index `k` -/
  | enc (rnd k : Nat)
  /-- DEC, with its round counter `rnd` and key index `k` -/
  | dec (rnd k : Nat)
  /-- KSRUN, with its working state -/
  | ksrun (work : KsWork)
deriving DecidableEq, Repr

/-- A command in flight: what it is and how many clock edges remain until it completes (`30_encoding.md` R114). -/
structure Running where
  task : Task
  left : Nat
deriving DecidableEq, Repr

/-- One host access at the register port: a read or a write at a 12-bit byte offset with a size in bytes
(`20_memory.md` R70, R71). -/
inductive Access where
  | read (addr : BitVec 12) (size : Nat)
  | write (addr : BitVec 12) (size : Nat) (data : Word)
deriving DecidableEq, Repr

/-- The block's answer to an access: OK, OK with read data, or ERROR (`20_memory.md` R71). -/
inductive Response where
  | okWrite
  | okRead (rdata : Word)
  | error
deriving DecidableEq, Repr

/-- What the outside world does to the block in one step, which is one clock edge, or for a command-level issue the
write and the whole wait (logs 6, 7, 8). -/
inductive Event where
  /-- a clock edge with a host access: the sequencer goes on, and the access is performed (`20_memory.md` R72) -/
  | access (a : Access)
  /-- a clock edge with no access: the sequencer goes on (`20_memory.md` R71) -/
  | clock
  /-- a clock edge with `rst` asserted, with the access presented then, if any, which is not performed
  (`70_reset_and_hazards.md` R260) -/
  | rst (presented : Option Access)
  /-- a command issued at command level: the write of `v` to CMD and the wait for its completion as the one
  transition `exec(v, s)` of `30_encoding.md` R115 (log 7) -/
  | command (v : Word)
deriving DecidableEq, Repr

/-- The state of one instance. The fields from `ieDone` to `running` are the architectural state of `10_state.md` R30,
each register held once; ID, KS_P, KS_Q and irq are computed (constants and a combinational output), CMD holds no value
(R36), and BUSY is `running.isSome`. The other fields are the model's own (logs 1, 3, 4, 6, 10). -/
structure State where
  /-- the synthesis parameters of the instance, which no step changes (`00_scope.md` R7, R9; log 1) -/
  params : Params
  /-- CTRL.IE_DONE (R32) -/
  ieDone : Bool
  /-- CTRL.IE_ERR (R32) -/
  ieErr : Bool
  /-- STATUS.DONE (R49) -/
  done : Bool
  /-- STATUS.SCHED_VALID (R48) -/
  schedValid : Bool
  /-- STATUS.ERR (R51) -/
  err : ErrCode
  /-- CFG.ROUNDS (R34) -/
  rounds : BitVec 8
  /-- KEYLEN (R35) -/
  keylen : BitVec 8
  /-- RES (R37) -/
  res : Word
  /-- LASTRULE (R38) -/
  lastRule : Rule
  /-- CAR (R41) -/
  car : Word
  /-- BLK[0] (R42) -/
  blk0 : Word
  /-- BLK[1] (R42) -/
  blk1 : Word
  /-- BLK[2] (R42) -/
  blk2 : Word
  /-- BLK[3] (R42) -/
  blk3 : Word
  /-- HA (R40) -/
  ha : HalfRegs
  /-- HB (R40) -/
  hb : HalfRegs
  /-- KEY[] (R45) -/
  key : Memory
  /-- RK[] (R46) -/
  rk : Memory
  /-- the sequencer: the command in flight, if any (R54) -/
  running : Option Running
  /-- what the outside world does next, oldest first (log 6) -/
  inputs : List Event
  /-- the port's answer to the access of the last step, if it had one (log 10) -/
  response : Option Response
  /-- the free-value counter of the RAM contents: resets since the start (log 3) -/
  ramEpoch : Nat
  /-- the free-value counter of reads of a running command's write set (log 4) -/
  freeReads : Nat
deriving DecidableEq, Repr

/-- Why the machine could stop with a fault: there is no reason. "The block has no exceptions in the processor sense"
(`60_exceptions.md` R230) and every accepted command completes (`70_reset_and_hazards.md` R278), so no constructor. -/
inductive Fault where
deriving DecidableEq, Repr

/-- Why a step could be refused. -/
inductive Refusal where
  /-- Raised by no arm of `exec`: every command has its meaning. Safe: it would only stop a run. -/
  | notModelled (mnemonic : String)
deriving DecidableEq, Repr

/-- The reset state of an instance with parameters `p` (`10_state.md` R56): every register 0, the sequencer idle, the
RAMs not written since reset number `epoch` (R47, log 3). -/
def State.resetOf (p : Params) (epoch : Nat) : State where
  params := p
  ieDone := false
  ieErr := false
  done := false
  schedValid := false
  err := .none
  rounds := 0
  keylen := 0
  res := 0
  lastRule := 0
  car := 0
  blk0 := 0
  blk1 := 0
  blk2 := 0
  blk3 := 0
  ha := ⟨0, 0⟩
  hb := ⟨0, 0⟩
  key := []
  rk := []
  running := none
  inputs := []
  response := none
  ramEpoch := epoch
  freeReads := 0

/-- The machine right after reset (`10_state.md` R56), for the instance `Params.default` (log 1). -/
def State.reset : State := State.resetOf Params.default 0

end Sys2Proof.Machine
end

