-- ==== Sys2Proof/Machine/Ops.lean ====
section
/-! DEFINITION. The named operations over RAMs and registers, and the issue protocol: recording an error (the one shared
operation that stands where a processor takes an exception), completing a command, and the transition
`exec(v, s)` of `30_encoding.md` R115. -/

namespace Sys2Proof.Machine

/-- Bits [n-1:0] of a slot, the bits above cleared: what a write to an n-bit register stores, and arithmetic modulo
2^n (`10_state.md` R44, `00_scope.md` R15). -/
def trunc (n : Nat) (v : Word) : Word := (v.setWidth n).setWidth 64

/-- The integer whose bit c is `f c` for c below n: the sum of `f c` times 2^c (`00_scope.md` R13). -/
def cellSum (f : Nat → Bool) : Nat → Nat
  | 0 => 0
  | n + 1 => cellSum f n + (f n).toNat * 2 ^ n

/-- The n-bit value whose cell c is `f c`: cell c is bit c (`00_scope.md` R14). -/
def ofCells (n : Nat) (f : Nat → Bool) : Word := BitVec.ofNat 64 (cellSum f n)

/-- Byte lane k of a register: bits [8k+7:8k], lane 0 the least significant byte (`20_memory.md` R74). -/
def byteLane (v : Word) (k : Nat) : BitVec 8 := v.extractLsb' (8 * k) 8

/-! ## The instance's sizes -/

/-- KMAX = ceil(2040 / W), the number of KEY entries (`00_scope.md` R10). -/
def kmax (p : Params) : Nat := (2040 + p.width.bits - 1) / p.width.bits

/-- 2*RMAX, the number of RK entries (`00_scope.md` R9). -/
def rkSize (p : Params) : Nat := 2 * p.rmax

/-! ## RAMs -/

/-- The entry at index `a`, if it was written since reset. -/
def Memory.find (a : Nat) : Memory → Option Word
  | [] => none
  | (b, u) :: m => if a = b then some u else Memory.find a m

/-- Write entry `a`, keeping the indexes strictly rising. -/
def Memory.insert (a : Nat) (v : Word) : Memory → Memory
  | [] => [(a, v)]
  | (b, u) :: m => if a < b then (a, v) :: (b, u) :: m else if a = b then (a, v) :: m else (b, u) :: Memory.insert a v m

/-- Write the values of a list to the entries `a`, `a + 1`, ... -/
def Memory.insertFrom (a : Nat) : List Word → Memory → Memory
  | [], m => m
  | v :: vs, m => Memory.insertFrom (a + 1) vs (m.insert a v)

/-- What a RAM entry holds until it is written: a W-bit free value, drawn per entry at reset (`10_state.md` R47,
log 3). -/
def State.ramInitial (s : State) (bank : RamBank) (a : Nat) : Word :=
  trunc s.params.width.bits (Config.ramDraw s.ramEpoch bank a)

/-- KEY[j] (`10_state.md` R45). -/
def State.keyAt (s : State) (j : Nat) : Word := (s.key.find j).getD (s.ramInitial .key j)

/-- RK[i] (`10_state.md` R46). -/
def State.rkAt (s : State) (i : Nat) : Word := (s.rk.find i).getD (s.ramInitial .rk i)

/-! ## Registers -/

/-- W of this instance. -/
def State.w (s : State) : Nat := s.params.width.bits

/-- STATUS.BUSY: 1 from the acceptance of a command until its completion (`10_state.md` R50). -/
def State.busy (s : State) : Bool := s.running.isSome

/-- R, the value of CFG.ROUNDS (`00_scope.md` R8). -/
def State.r (s : State) : Nat := s.rounds.toNat

/-- K, the value of KEYLEN (`44_key_schedule.md` R180). -/
def State.k (s : State) : Nat := s.keylen.toNat

/-- `H[h]` (`00_scope.md` R16). -/
def State.half (s : State) : Half → HalfRegs
  | .A => s.ha
  | .B => s.hb

/-- `H[h] <- r`. -/
def State.setHalf (s : State) (h : Half) (r : HalfRegs) : State :=
  match h with
  | .A => { s with ha := r }
  | .B => { s with hb := r }

/-- The pair (BLK[2h], BLK[2h+1]): (high, low) of the seed of half h (`42_meca.md` R150). -/
def State.pair (s : State) : Half → Word × Word
  | .A => (s.blk0, s.blk1)
  | .B => (s.blk2, s.blk3)

/-- `BLK[2h] <- x; BLK[2h+1] <- y`. -/
def State.setPair (s : State) (h : Half) (x y : Word) : State :=
  match h with
  | .A => { s with blk0 := x, blk1 := y }
  | .B => { s with blk2 := x, blk3 := y }

/-- `RES <- v`. -/
def State.setRes (s : State) (v : Word) : State := { s with res := v }

/-- `LASTRULE <- rule`. -/
def State.setLastRule (s : State) (rule : Rule) : State := { s with lastRule := rule }

/-- `CAR <- v`. -/
def State.setCar (s : State) (v : Word) : State := { s with car := v }

/-- `KEY <- m`, the whole RAM. -/
def State.setKey (s : State) (m : Memory) : State := { s with key := m }

/-- `RK <- m`, the whole RAM. -/
def State.setRk (s : State) (m : Memory) : State := { s with rk := m }

/-- `STATUS.SCHED_VALID <- b` (`10_state.md` R48). -/
def State.setSchedValid (s : State) (b : Bool) : State := { s with schedValid := b }

/-- The port's answer to this step's access (`20_memory.md` R71, log 10). -/
def State.respond (s : State) (a : Response) : State := { s with response := some a }

/-! ## Errors and the issue protocol -/

/-- Record an error: the code of the first refused command or dropped write is kept, a later one is recorded nowhere,
and nothing else changes (`10_state.md` R51, `60_exceptions.md` R233). This is the block's only error operation: it has
no trap entry and no trap return (R236, R237). -/
def State.recordErr (s : State) (code : ErrCode) : State :=
  { s with err := if s.err = .none then code else s.err }

/-- Set or clear STATUS.DONE (`10_state.md` R49). -/
def State.setDone (s : State) (b : Bool) : State := { s with done := b }

/-- Put a command in flight, or none. -/
def State.setRunning (s : State) (q : Option Running) : State := { s with running := q }

/-- Completion: BUSY to 0 and DONE to 1 in the same clock edge (`30_encoding.md` R114, `10_state.md` R50). -/
def State.complete (s : State) : State := (s.setRunning none).setDone true

/-- The command-level transition `exec(v, s)` of `30_encoding.md` R115 for a decoded command: dropped with ERR_BUSY
while a command runs (R111); refused with its code, nothing else changed, when a check fails (R112); otherwise
accepted, carried out by `effect`, and completed (R113, R114). `bad` is the outcome of checks 3 to 5 of R112. -/
def issue (bad : Option ErrCode) (effect : State → State) (s : State) : Host.Outcome State Fault Refusal :=
  if s.busy then .next (s.recordErr .busy)
  else
    match bad with
    | some code => .next (s.recordErr code)
    | none => .next (effect s).complete

end Sys2Proof.Machine
end

