-- ==== Sys2Proof/Machine/Operands.lean ====
section
/-! DEFINITION. The functions of the datapath, leaf first: the neighbourhood index and rule bit, the elementary
automaton, the second-order automaton, the rule-selection mux, the key-schedule pass. -/

namespace Sys2Proof.Machine

/-! ## Neighbourhood-index LUT (`40_neighborhood.md`) -/

/-- `index(l, c, r) = 4*l + 2*c + r` (`40_neighborhood.md` R130). -/
def index (l c r : Bool) : Nat := 4 * l.toNat + 2 * c.toNat + r.toNat

/-- `RuleBit(rule, idx)`: bit idx of rule, bit 0 least significant (`40_neighborhood.md` R131). -/
def ruleBit (rule : Rule) (idx : Nat) : Bool := rule.getLsbD idx

/-! ## Elementary automaton (`41_elementary_ca.md`) -/

/-- `L(s, c, bnd)`, the left neighbour of cell c of a W-cell State (`41_elementary_ca.md` R141). -/
def leftCell (w : Nat) (bnd : Boundary) (s : Word) (c : Nat) : Bool :=
  match bnd with
  | .periodic => s.getLsbD ((c + w - 1) % w)
  | .zero => if c = 0 then false else s.getLsbD (c - 1)

/-- `Rt(s, c, bnd)`, the right neighbour of cell c of a W-cell State (`41_elementary_ca.md` R141). -/
def rightCell (w : Nat) (bnd : Boundary) (s : Word) (c : Nat) : Bool :=
  match bnd with
  | .periodic => s.getLsbD ((c + 1) % w)
  | .zero => if c = w - 1 then false else s.getLsbD (c + 1)

/-- `CA(s, rule, bnd)`, one generation of a W-cell State, every cell computed from `s`
(`41_elementary_ca.md` R140, R142). -/
def ca (w : Nat) (s : Word) (rule : Rule) (bnd : Boundary) : Word :=
  ofCells w fun c => ruleBit rule (index (leftCell w bnd s c) (s.getLsbD c) (rightCell w bnd s c))

/-! ## Second-order automaton (`42_meca.md`) -/

/-- `Seed(high, low, reverse)` (`42_meca.md` R150). -/
def seed (high low : Word) (reverse : Bool) : HalfRegs :=
  if reverse then { prev := low, state := high } else { prev := high, state := low }

/-- `xor_state(x)` (`42_meca.md` R153). -/
def HalfRegs.xorState (g : HalfRegs) (x : Word) : HalfRegs := { g with state := g.state ^^^ x }

/-- `xor_prev(x)` (`42_meca.md` R153). -/
def HalfRegs.xorPrev (g : HalfRegs) (x : Word) : HalfRegs := { g with prev := g.prev ^^^ x }

/-- `MecaStep(state, prev, rule)`, always with the Periodic boundary (`42_meca.md` R156). -/
def mecaStep (w : Nat) (g : HalfRegs) (rule : Rule) : HalfRegs where
  state := g.prev ^^^ ca w g.state rule .periodic
  prev := g.state

/-! ## Rule-selection mux (`43_morph.md`) -/

/-- `POOL7`, in the order listed (`43_morph.md` R170). -/
def pool7 : List Rule := [75, 86, 89, 149, 166, 173, 229]

/-- `Sel(state) = POOL7[state mod 7]`, the state read as an unsigned integer (`43_morph.md` R171). -/
def sel (state : Word) : Rule := pool7.getD (state.toNat % 7) 0

/-- One metamorphic step of a half: the rule is selected before the step (`43_morph.md` R173). -/
def morph (w : Nat) (g : HalfRegs) : HalfRegs := mecaStep w g (sel g.state)

/-! ## Key schedule (`44_key_schedule.md`) -/

/-- `POOL3`, in the order listed (`44_key_schedule.md` R185). -/
def pool3 : List Rule := [54, 110, 137]

/-- The constant P of width W, the value of KS_P (`44_key_schedule.md` R181, `10_state.md` R39). -/
def ksP : Width → Word
  | .w16 => 0xB7E1
  | .w32 => 0xB7E15162
  | .w64 => 0xB7E151628AED2A6A

/-- The constant Q of width W, the value of KS_Q (`44_key_schedule.md` R181, `10_state.md` R39). -/
def ksQ : Width → Word
  | .w16 => 0x9E37
  | .w32 => 0x9E3779B9
  | .w64 => 0x9E3779B97F4A7C15

/-- The rule of one mixing pass: `POOL3[seed mod 3]` with seed = k XOR x (`44_key_schedule.md` R184). -/
def ksPassRule (k x : Word) : Rule := pool3.getD ((k ^^^ x).toNat % 3) 0

/-- The new slot value of one mixing pass: CA of the seed under its rule, Periodic (`44_key_schedule.md` R184). -/
def ksPass (w : Nat) (k x : Word) : Word := ca w (k ^^^ x) (ksPassRule k x) .periodic

/-- The literal slot advance: the index moves by (1 mod length) - 1 and is reduced modulo the length
(`44_key_schedule.md` R188). -/
def slotAdvance (i length : Nat) : Nat := (((i : Int) + (((1 % length : Nat) : Int) - 1)) % (length : Int)).toNat

end Sys2Proof.Machine
end

