-- ==== Sys2Proof/Machine/Flags.lean ====
section
/-! DEFINITION. The flags and control fields: the images of ID, CTRL and STATUS, what a write to CTRL or STATUS does,
the interrupt output, and the operand checks of a command (checks 3 to 5 of `30_encoding.md` R112). The block has no
arithmetic flags (`10_state.md` R52). -/

namespace Sys2Proof.Machine

/-- The 4-bit code of STATUS.ERR (`60_exceptions.md` R231). -/
def ErrCode.code : ErrCode → BitVec 4
  | .none => 0
  | .busy => 1
  | .opcode => 2
  | .reserved => 3
  | .rounds => 4
  | .keylen => 5
  | .kidx => 6

/-- One flag as a field of a 64-bit register. -/
def flagAt (b : Bool) (pos : Nat) : Word := (if b then 1#64 else 0#64) <<< pos

/-- ID: WIDTH, RMAX, KMAX, REV = 0x07 and MAGIC = 0x4D454341 (`10_state.md` R31). -/
def idImage (p : Params) : Word :=
  BitVec.ofNat 64 p.width.bits ||| BitVec.ofNat 64 p.rmax <<< 8 ||| BitVec.ofNat 64 (kmax p) <<< 16
    ||| 0x07#64 <<< 24 ||| 0x4D454341#64 <<< 32

/-- CTRL as read: IE_DONE, IE_ERR, the rest 0 (`10_state.md` R32). -/
def ctrlImage (s : State) : Word := flagAt s.ieDone 0 ||| flagAt s.ieErr 1

/-- STATUS as read: BUSY, DONE, SCHED_VALID, ERR, the rest 0 (`10_state.md` R33). -/
def statusImage (s : State) : Word :=
  flagAt s.busy 0 ||| flagAt s.done 1 ||| flagAt s.schedValid 2 ||| s.err.code.setWidth 64 <<< 4

/-- A write to CTRL stores IE_DONE and IE_ERR (`10_state.md` R32). -/
def State.writeCtrl (s : State) (v : Word) : State := { s with ieDone := v.getLsbD 0, ieErr := v.getLsbD 1 }

/-- A write to STATUS: bit 1 clears DONE, bit 8 clears ERR, the other bits are ignored (`10_state.md` R33). -/
def State.writeStatus (s : State) (v : Word) : State :=
  { s with
    done := if v.getLsbD 1 then false else s.done
    err := if v.getLsbD 8 then .none else s.err }

/-- The interrupt output, a combinational function of four state fields (`60_exceptions.md` R240). -/
def State.irq (s : State) : Bool := (s.done && s.ieDone) || (s.err != .none && s.ieErr)

/-- Check 3 of `30_encoding.md` R112: CFG.ROUNDS = 0 or CFG.ROUNDS > RMAX. -/
def roundsCheck (s : State) : Option ErrCode :=
  if s.r = 0 ∨ s.params.rmax < s.r then some .rounds else none

/-- Check 4 of `30_encoding.md` R112: KEYLEN = 0 or KEYLEN > KMAX. -/
def keylenCheck (s : State) : Option ErrCode :=
  if s.k = 0 ∨ kmax s.params < s.k then some .keylen else none

/-- Check 5 of `30_encoding.md` R112 for MXS and MXP: KIDX ≥ 2*RMAX. -/
def kidxCheck (s : State) (kidx : Nat) : Option ErrCode :=
  if rkSize s.params ≤ kidx then some .kidx else none

/-- Check 5 of `30_encoding.md` R112 for ERND: KIDX + 1 ≥ 2*RMAX. -/
def erndCheck (s : State) (kidx : Nat) : Option ErrCode :=
  if rkSize s.params ≤ kidx + 1 then some .kidx else none

/-- Check 5 of `30_encoding.md` R112 for DRND: KIDX = 0 or KIDX ≥ 2*RMAX. -/
def drndCheck (s : State) (kidx : Nat) : Option ErrCode :=
  if kidx = 0 ∨ rkSize s.params ≤ kidx then some .kidx else none

/-- KSRUN's checks 3 and 4, in that order (`30_encoding.md` R112). -/
def ksrunCheck (s : State) : Option ErrCode := (roundsCheck s).or (keylenCheck s)

/-- Checks 3 to 5 of `30_encoding.md` R112 for a decoded command: the code of the first that fails. -/
def check (i : Instr) (s : State) : Option ErrCode :=
  match i with
  | .nop => none
  | .nbidx _ _ _ => none
  | .rulebit _ _ _ _ => none
  | .castep _ _ => none
  | .mload _ _ => none
  | .mstore _ _ => none
  | .mxs _ kidx => kidxCheck s kidx
  | .mxp _ kidx => kidxCheck s kidx
  | .mstep _ _ => none
  | .msel _ => none
  | .mmorph _ => none
  | .ksrun => ksrunCheck s
  | .ernd kidx => erndCheck s kidx
  | .drnd kidx => drndCheck s kidx
  | .enc => roundsCheck s
  | .dec => roundsCheck s

/-- The code a decode error records (`30_encoding.md` R108, R109). -/
def decodeErrCode : DecodeError → ErrCode
  | .undefinedOpcode => .opcode
  | .reservedBits => .reserved

end Sys2Proof.Machine
end

