-- ==== Sys2Proof/Machine/SecondOrder.lean ====
section
/-! DEFINITION. The second-order-automaton commands MLOAD, MSTORE, MXS, MXP, MSTEP (`42_meca.md`). The effect of MLOAD
and of MSTORE is a function of its own, since ENC and DEC begin and end with it (`45_block_cipher.md` R203, R205). -/

namespace Sys2Proof.Machine

/-- Build half h from its pair of the block register (`42_meca.md` R150, R151). -/
def loadHalf (h : Half) (rev : Bool) (s : State) : State :=
  s.setHalf h (seed (s.pair h).1 (s.pair h).2 rev)

/-- Write half h back to its pair of the block register: (prev, state) in encrypt order, (state, prev) in decrypt
order (`42_meca.md` R152). -/
def storeHalf (h : Half) (ord : StoreOrder) (s : State) : State :=
  match ord with
  | .encrypt => s.setPair h (s.half h).prev (s.half h).state
  | .decrypt => s.setPair h (s.half h).state (s.half h).prev

/-- MLOAD (`42_meca.md` R151). -/
def execMload (h : Half) (rev : Bool) (s : State) : Host.Outcome State Fault Refusal :=
  issue (check (.mload h rev) s) (loadHalf h rev) s

/-- MSTORE (`42_meca.md` R152). -/
def execMstore (h : Half) (ord : StoreOrder) (s : State) : Host.Outcome State Fault Refusal :=
  issue (check (.mstore h ord) s) (storeHalf h ord) s

/-- MXS: `H[h].state <- H[h].state ^ RK[KIDX]` (`42_meca.md` R154). -/
def execMxs (h : Half) (kidx : Nat) (s : State) : Host.Outcome State Fault Refusal :=
  issue (check (.mxs h kidx) s) (fun s => s.setHalf h ((s.half h).xorState (s.rkAt kidx))) s

/-- MXP: `H[h].prev <- H[h].prev ^ RK[KIDX]` (`42_meca.md` R155). -/
def execMxp (h : Half) (kidx : Nat) (s : State) : Host.Outcome State Fault Refusal :=
  issue (check (.mxp h kidx) s) (fun s => s.setHalf h ((s.half h).xorPrev (s.rkAt kidx))) s

/-- MSTEP: one reversible generation of half h under an explicit rule; `LASTRULE <- RULE` (`42_meca.md` R157). -/
def execMstep (h : Half) (rule : Rule) (s : State) : Host.Outcome State Fault Refusal :=
  issue (check (.mstep h rule) s) (fun s => (s.setHalf h (mecaStep s.w (s.half h) rule)).setLastRule rule) s

end Sys2Proof.Machine
end

