-- ==== Sys2Proof/Machine/BlockCipher.lean ====
section
/-! DEFINITION. The round-pipeline commands ERND, DRND, ENC and DEC (`45_block_cipher.md`). -/

namespace Sys2Proof.Machine

/-- `EncRound(k)`: each half takes its round key into `state` and steps under the rule it then selects; LASTRULE is
the rule of HB (`45_block_cipher.md` R201). -/
def encRound (k : Nat) (s : State) : State :=
  ((s.setHalf .A (morph s.w (s.ha.xorState (s.rkAt k)))).setHalf .B (morph s.w (s.hb.xorState (s.rkAt (k + 1))))).setLastRule
    (sel (s.hb.xorState (s.rkAt (k + 1))).state)

/-- `DecRound(k)`: each half steps under the rule it selects and takes its round key into `prev`; LASTRULE is the
rule of HA (`45_block_cipher.md` R202). -/
def decRound (k : Nat) (s : State) : State :=
  ((s.setHalf .B ((morph s.w s.hb).xorPrev (s.rkAt k))).setHalf .A ((morph s.w s.ha).xorPrev (s.rkAt (k - 1)))).setLastRule
    (sel s.ha.state)

/-- `n` encryption rounds from key index `k`, which advances by 2 (`45_block_cipher.md` R203). -/
def encRounds : Nat → Nat → State → State
  | 0, _, s => s
  | n + 1, k, s => encRounds n (k + 2) (encRound k s)

/-- `n` decryption rounds from key index `k`, which descends by 2 (`45_block_cipher.md` R205). -/
def decRounds : Nat → Nat → State → State
  | 0, _, s => s
  | n + 1, k, s => decRounds n (k - 2) (decRound k s)

/-- Both halves built from the block register: `reverse = false` for ENC, `true` for DEC (`45_block_cipher.md` R203,
R205). -/
def loadBlock (rev : Bool) (s : State) : State := loadHalf .B rev (loadHalf .A rev s)

/-- Both halves written back to the block register: `[A.prev, A.state, B.prev, B.state]` for ENC,
`[A.state, A.prev, B.state, B.prev]` for DEC (`45_block_cipher.md` R203, R205, R207). -/
def storeBlock (ord : StoreOrder) (s : State) : State := storeHalf .B ord (storeHalf .A ord s)

/-- ERND: one encryption round on both halves (`45_block_cipher.md` R201). -/
def execErnd (kidx : Nat) (s : State) : Host.Outcome State Fault Refusal :=
  issue (check (.ernd kidx) s) (encRound kidx) s

/-- DRND: one decryption round on both halves (`45_block_cipher.md` R202). -/
def execDrnd (kidx : Nat) (s : State) : Host.Outcome State Fault Refusal :=
  issue (check (.drnd kidx) s) (decRound kidx) s

/-- ENC: encrypt the block in BLK[] with RK[0..2R-1] (`45_block_cipher.md` R203). -/
def execEnc (s : State) : Host.Outcome State Fault Refusal :=
  issue (check .enc s) (fun s => storeBlock .encrypt (encRounds s.r 0 (loadBlock false s))) s

/-- DEC: decrypt the block in BLK[] with RK[0..2R-1] (`45_block_cipher.md` R205). -/
def execDec (s : State) : Host.Outcome State Fault Refusal :=
  issue (check .dec s) (fun s => storeBlock .decrypt (decRounds s.r (2 * s.r - 1) (loadBlock true s))) s

end Sys2Proof.Machine
end

