-- ==== Sys2Proof/Machine/Control.lean ====
section
/-! DEFINITION. The control command NOP (`46_control.md`). -/

namespace Sys2Proof.Machine

/-- NOP: no datapath effect; it completes (`46_control.md` R220). -/
def execNop (s : State) : Host.Outcome State Fault Refusal := issue (check .nop s) id s

end Sys2Proof.Machine
end

