-- ==== Sys2Proof/Machine/Elementary.lean ====
section
/-! DEFINITION. The elementary-automaton command CASTEP (`41_elementary_ca.md`). -/

namespace Sys2Proof.Machine

/-- CASTEP: `CAR <- CA(CAR, RULE, bnd); LASTRULE <- RULE` (`41_elementary_ca.md` R143). -/
def execCastep (rule : Rule) (bnd : Boundary) (s : State) : Host.Outcome State Fault Refusal :=
  issue (check (.castep rule bnd) s) (fun s => (s.setCar (ca s.w s.car rule bnd)).setLastRule rule) s

end Sys2Proof.Machine
end

