-- ==== Sys2Proof/Machine/KeySchedule.lean ====
section
/-! DEFINITION. The key-schedule command KSRUN (`44_key_schedule.md`). Its loops are iterations of one-slot steps over
the sequencer's working state (`10_state.md` R54), which the sequencer also runs one clock edge at a time. -/

namespace Sys2Proof.Machine

/-- n = 2*R, the length of the schedule (`44_key_schedule.md` R183, R190). -/
def ksLength (s : State) : Nat := 2 * s.r

/-- The number of mixing passes, 3 * max(K, 2*R) (`44_key_schedule.md` R186). -/
def ksPasses (s : State) : Nat := 3 * max s.k (ksLength s)

/-- The working state before the first step: nothing filled, i = 0 and j = 0 (`44_key_schedule.md` R183, R187). -/
def ksStart : KsWork where
  fill := 0
  sched := []
  t := 0
  i := 0
  j := 0
  last := 0

/-- One step of the initial fill: `S[0] <- KS_P`, then `S[i] <- S[i-1] + KS_Q` modulo 2^W (`44_key_schedule.md` R182). -/
def ksFillStep (p : Params) (q : KsWork) : KsWork :=
  { q with
    sched := q.sched ++
      [if q.fill = 0 then ksP p.width else trunc p.width.bits (q.sched.getD (q.fill - 1) 0 + ksQ p.width)]
    fill := q.fill + 1 }

/-- One mixing pass: `(S[i], rule) <- KsPass(KEY[j], S[i])`, then both slot advances (`44_key_schedule.md` R183, R184,
R188). `n` is the schedule's length and `k` the key's. -/
def ksMixStep (w : Nat) (keyAt : Nat → Word) (n k : Nat) (q : KsWork) : KsWork :=
  { q with
    sched := q.sched.set q.i (ksPass w (keyAt q.j) (q.sched.getD q.i 0))
    last := ksPassRule (keyAt q.j) (q.sched.getD q.i 0)
    i := slotAdvance q.i n
    j := slotAdvance q.j k
    t := q.t + 1 }

/-- One fill step on the operands of state `s`. -/
def ksFill (s : State) : KsWork → KsWork := ksFillStep s.params

/-- One mixing pass on the operands of state `s`. -/
def ksMix (s : State) : KsWork → KsWork := ksMixStep s.w s.keyAt (ksLength s) s.k

/-- The steps a working state still has before it: the rest of the fill, then the rest of the passes. -/
def ksRest (s : State) (q : KsWork) : KsWork :=
  (ksMix s)^[ksPasses s - q.t] ((ksFill s)^[ksLength s - q.fill] q)

/-- The results of a finished expansion: RK[0..2R-1], LASTRULE and SCHED_VALID (`44_key_schedule.md` R183). -/
def ksWriteBack (q : KsWork) (s : State) : State :=
  ((s.setRk (s.rk.insertFrom 0 q.sched)).setLastRule q.last).setSchedValid true

/-- KSRUN (`44_key_schedule.md` R183). -/
def execKsrun (s : State) : Host.Outcome State Fault Refusal :=
  issue (check .ksrun s) (fun s => ksWriteBack (ksRest s ksStart) s) s

end Sys2Proof.Machine
end

