-- ==== Sys2Proof/Machine/Morph.lean ====
section
/-! DEFINITION. The metamorphic-mux commands MSEL and MMORPH (`43_morph.md`). -/

namespace Sys2Proof.Machine

/-- MSEL: `RES <- zext_W(rule); LASTRULE <- rule` with rule = Sel(H[h].state) (`43_morph.md` R172). -/
def execMsel (h : Half) (s : State) : Host.Outcome State Fault Refusal :=
  issue (check (.msel h) s)
    (fun s => (s.setRes ((sel (s.half h).state).setWidth 64)).setLastRule (sel (s.half h).state)) s

/-- MMORPH: step half h under the rule its state selects before the step; `LASTRULE <- rule` (`43_morph.md` R173). -/
def execMmorph (h : Half) (s : State) : Host.Outcome State Fault Refusal :=
  issue (check (.mmorph h) s)
    (fun s => (s.setHalf h (morph s.w (s.half h))).setLastRule (sel (s.half h).state)) s

end Sys2Proof.Machine
end

