-- ==== Sys2Proof/Machine/Neighborhood.lean ====
section
/-! DEFINITION. The neighbourhood-index commands NBIDX and RULEBIT (`40_neighborhood.md`). -/

namespace Sys2Proof.Machine

/-- NBIDX: `RES <- zext_W(index(NL, NC, NR))` (`40_neighborhood.md` R132). -/
def execNbidx (l c r : Bool) (s : State) : Host.Outcome State Fault Refusal :=
  issue (check (.nbidx l c r) s) (fun s => s.setRes (BitVec.ofNat 64 (index l c r))) s

/-- RULEBIT: `RES <- zext_W(RuleBit(RULE, index(NL, NC, NR)))` (`40_neighborhood.md` R133). -/
def execRulebit (rule : Rule) (l c r : Bool) (s : State) : Host.Outcome State Fault Refusal :=
  issue (check (.rulebit rule l c r) s)
    (fun s => s.setRes (BitVec.ofNat 64 (ruleBit rule (index l c r)).toNat)) s

end Sys2Proof.Machine
end

