-- ==== Sys2Proof/Machine/Dispatch.lean ====
section
/-! DEFINITION. The meaning of each command: `exec(v, s)` of `30_encoding.md` R115 for a decoded command. -/

namespace Sys2Proof.Machine

def exec (i : Instr) (s : State) : Host.Outcome State Fault Refusal :=
  match i with
  | .nop => Sys2Proof.Machine.execNop s
  | .nbidx l c r => Sys2Proof.Machine.execNbidx l c r s
  | .rulebit rule l c r => Sys2Proof.Machine.execRulebit rule l c r s
  | .castep rule bnd => Sys2Proof.Machine.execCastep rule bnd s
  | .mload h rev => Sys2Proof.Machine.execMload h rev s
  | .mstore h ord => Sys2Proof.Machine.execMstore h ord s
  | .mxs h kidx => Sys2Proof.Machine.execMxs h kidx s
  | .mxp h kidx => Sys2Proof.Machine.execMxp h kidx s
  | .mstep h rule => Sys2Proof.Machine.execMstep h rule s
  | .msel h => Sys2Proof.Machine.execMsel h s
  | .mmorph h => Sys2Proof.Machine.execMmorph h s
  | .ksrun => Sys2Proof.Machine.execKsrun s
  | .ernd kidx => Sys2Proof.Machine.execErnd kidx s
  | .drnd kidx => Sys2Proof.Machine.execDrnd kidx s
  | .enc => Sys2Proof.Machine.execEnc s
  | .dec => Sys2Proof.Machine.execDec s

end Sys2Proof.Machine
end

