-- ==== Sys2Proof/Machine/Sequencer.lean ====
section
/-! DEFINITION. The sequencer: acceptance of a command, what it does at each clock edge, and completion
(`30_encoding.md` R111 to R114, `10_state.md` R53 to R55). -/

namespace Sys2Proof.Machine

/-- The accepted command of a task (`10_state.md` R54: `op`). -/
def Task.op : Task → Instr
  | .unit i => i
  | .enc _ _ => .enc
  | .dec _ _ => .dec
  | .ksrun _ => .ksrun

/-- LAT of a command accepted in state `s`, at least 1. It depends on W only, for ENC and DEC on R too, for KSRUN on R
and KEYLEN too, and on no data (`70_reset_and_hazards.md` R276; log 5). -/
def latency (i : Instr) (s : State) : Nat :=
  match i with
  | .nop => 1 + Config.latencyExtra i.opcode s.params.width 0 0
  | .nbidx _ _ _ => 1 + Config.latencyExtra i.opcode s.params.width 0 0
  | .rulebit _ _ _ _ => 1 + Config.latencyExtra i.opcode s.params.width 0 0
  | .castep _ _ => 1 + Config.latencyExtra i.opcode s.params.width 0 0
  | .mload _ _ => 1 + Config.latencyExtra i.opcode s.params.width 0 0
  | .mstore _ _ => 1 + Config.latencyExtra i.opcode s.params.width 0 0
  | .mxs _ _ => 1 + Config.latencyExtra i.opcode s.params.width 0 0
  | .mxp _ _ => 1 + Config.latencyExtra i.opcode s.params.width 0 0
  | .mstep _ _ => 1 + Config.latencyExtra i.opcode s.params.width 0 0
  | .msel _ => 1 + Config.latencyExtra i.opcode s.params.width 0 0
  | .mmorph _ => 1 + Config.latencyExtra i.opcode s.params.width 0 0
  | .ksrun => 1 + Config.latencyExtra i.opcode s.params.width s.r s.k
  | .ernd _ => 1 + Config.latencyExtra i.opcode s.params.width 0 0
  | .drnd _ => 1 + Config.latencyExtra i.opcode s.params.width 0 0
  | .enc => 1 + Config.latencyExtra i.opcode s.params.width s.r 0
  | .dec => 1 + Config.latencyExtra i.opcode s.params.width s.r 0

/-- The task a command starts as: the counters of `10_state.md` R54 at their start values (`45_block_cipher.md` R203,
R205; `44_key_schedule.md` R187). -/
def startTask (i : Instr) (s : State) : Task :=
  match i with
  | .nop => .unit i
  | .nbidx _ _ _ => .unit i
  | .rulebit _ _ _ _ => .unit i
  | .castep _ _ => .unit i
  | .mload _ _ => .unit i
  | .mstore _ _ => .unit i
  | .mxs _ _ => .unit i
  | .mxp _ _ => .unit i
  | .mstep _ _ => .unit i
  | .msel _ => .unit i
  | .mmorph _ => .unit i
  | .ksrun => .ksrun ksStart
  | .ernd _ => .unit i
  | .drnd _ => .unit i
  | .enc => .enc 0 0
  | .dec => .dec 0 (2 * s.r - 1)

/-- What the start of a command's task does to the registers: ENC and DEC build their halves, which are in their write
set (`45_block_cipher.md` R203, R205; log 9), and KSRUN's acceptance clears SCHED_VALID (`30_encoding.md` R113). -/
def startEffect (task : Task) (s : State) : State :=
  match task with
  | .unit _ => s
  | .enc _ _ => loadBlock false s
  | .dec _ _ => loadBlock true s
  | .ksrun _ => s.setSchedValid false

/-- Acceptance: BUSY to 1, DONE to 0, for KSRUN SCHED_VALID to 0, and the sequencer starts the command
(`30_encoding.md` R113). -/
def accept (i : Instr) (s : State) : State :=
  (startEffect (startTask i s) (s.setDone false)).setRunning (some ⟨startTask i s, latency i s⟩)

/-- A value written to CMD while idle: decoded and checked at once, then accepted or refused (`30_encoding.md` R111,
R112). -/
def issueWord (v : Word) (s : State) : State :=
  match decode v with
  | .error e => s.recordErr (decodeErrCode e)
  | .ok i =>
    match check i s with
    | some code => s.recordErr code
    | none => accept i s

/-- The state a command-level transition leads to. -/
def carryOut (i : Instr) (s : State) : State :=
  match exec i s with
  | .next t => t
  | .fault _ => s
  | .refused _ => s

/-- Completion of a running command: what is left of it is done, its write set holds the values its rule computes, BUSY
falls and DONE is set (`30_encoding.md` R114). -/
def finish (task : Task) (s : State) : State :=
  match task with
  | .unit i => carryOut i (s.setRunning none)
  | .enc rnd k => (storeBlock .encrypt (encRounds (s.r - rnd) k s)).complete
  | .dec rnd k => (storeBlock .decrypt (decRounds (s.r - rnd) k s)).complete
  | .ksrun q => (ksWriteBack (ksRest s q) s).complete

/-- One step of the source's algorithm inside a multi-step command (`10_state.md` R53, R54): one round of ENC or DEC,
one slot of KSRUN's fill or one mixing pass. How fast these go is not observable (log 9). -/
def advance (task : Task) (left : Nat) (s : State) : State :=
  match task with
  | .unit i => s.setRunning (some ⟨.unit i, left⟩)
  | .enc rnd k =>
    if rnd < s.r then (encRound k s).setRunning (some ⟨.enc (rnd + 1) (k + 2), left⟩)
    else s.setRunning (some ⟨.enc rnd k, left⟩)
  | .dec rnd k =>
    if rnd < s.r then (decRound k s).setRunning (some ⟨.dec (rnd + 1) (k - 2), left⟩)
    else s.setRunning (some ⟨.dec rnd k, left⟩)
  | .ksrun q =>
    if q.fill < ksLength s then s.setRunning (some ⟨.ksrun (ksFill s q), left⟩)
    else if q.t < ksPasses s then s.setRunning (some ⟨.ksrun (ksMix s q), left⟩)
    else s.setRunning (some ⟨.ksrun q, left⟩)

/-- What the sequencer does at a clock edge: an idle block stays as it is; a running command completes when its last cycle ends, and otherwise
goes on (`30_encoding.md` R114, `70_reset_and_hazards.md` R278). -/
def clockEdge (s : State) : State :=
  match s.running with
  | none => s
  | some q => if q.left ≤ 1 then finish q.task s else advance q.task (q.left - 1) s

end Sys2Proof.Machine
end

