-- ==== Sys2Proof/Machine/Port.lean ====
section
/-! DEFINITION. The host port: the address map, reads and writes of every register, the hazards while a command runs,
reset, and what one event of the outside world does (`20_memory.md`, `70_reset_and_hazards.md`). -/

namespace Sys2Proof.Machine

/-- What an offset of the register space names (`20_memory.md` R75). -/
inductive Reg where
  | id
  | ctrl
  | status
  | cfg
  | cmd
  | keylen
  | res
  | lastRule
  | ksP
  | ksQ
  | car
  | blk0
  | blk1
  | blk2
  | blk3
  | haState
  | haPrev
  | hbState
  | hbPrev
  | key (j : Nat)
  | rk (i : Nat)
  | reserved
deriving DecidableEq, Repr

/-- The rows of the address map with one register each (`20_memory.md` R75). -/
def fixedMap : List (Nat × Reg) :=
  [(0x000, .id), (0x008, .ctrl), (0x010, .status), (0x018, .cfg), (0x020, .cmd), (0x028, .keylen), (0x030, .res),
    (0x038, .lastRule), (0x040, .ksP), (0x048, .ksQ), (0x050, .car), (0x080, .blk0), (0x088, .blk1), (0x090, .blk2),
    (0x098, .blk3), (0x0A0, .haState), (0x0A8, .haPrev), (0x0B0, .hbState), (0x0B8, .hbPrev)]

/-- What an 8-aligned offset names in an instance with parameters `p`: the windows KEY[j] at 0x400 + 8*j and RK[i] at
0x800 + 8*i, whose entries beyond KMAX and 2*RMAX act as reserved offsets (`20_memory.md` R75, R77). -/
def regAt (p : Params) (addr : BitVec 12) : Reg :=
  let a := addr.toNat
  if 0x800 ≤ a then
    if (a - 0x800) / 8 < rkSize p then .rk ((a - 0x800) / 8) else .reserved
  else if 0x400 ≤ a then
    if (a - 0x400) / 8 < kmax p then .key ((a - 0x400) / 8) else .reserved
  else (fixedMap.lookup a).getD .reserved

/-- The 64 bits a read of a register returns when idle (`10_state.md` R31 to R46, `20_memory.md` R76). -/
def readReg (r : Reg) (s : State) : Word :=
  match r with
  | .id => idImage s.params
  | .ctrl => ctrlImage s
  | .status => statusImage s
  | .cfg => s.rounds.setWidth 64
  | .cmd => 0
  | .keylen => s.keylen.setWidth 64
  | .res => s.res
  | .lastRule => s.lastRule.setWidth 64
  | .ksP => ksP s.params.width
  | .ksQ => ksQ s.params.width
  | .car => s.car
  | .blk0 => s.blk0
  | .blk1 => s.blk1
  | .blk2 => s.blk2
  | .blk3 => s.blk3
  | .haState => s.ha.state
  | .haPrev => s.ha.prev
  | .hbState => s.hb.state
  | .hbPrev => s.hb.prev
  | .key j => s.keyAt j
  | .rk i => s.rkAt i
  | .reserved => 0

/-- What a write of `v` to a register does when idle (`10_state.md` R31 to R46, `20_memory.md` R76, R79): a W-bit
register takes bits [W-1:0] (R44), read-only and reserved ones ignore it (R31, R37 to R39), CMD issues a command (R36),
and CFG, KEYLEN, KEY and RK clear SCHED_VALID (R48). -/
def writeReg (r : Reg) (v : Word) (s : State) : State :=
  match r with
  | .id => s
  | .ctrl => s.writeCtrl v
  | .status => s.writeStatus v
  | .cfg => { s with rounds := v.setWidth 8, schedValid := false }
  | .cmd => issueWord v s
  | .keylen => { s with keylen := v.setWidth 8, schedValid := false }
  | .res => s
  | .lastRule => s
  | .ksP => s
  | .ksQ => s
  | .car => s.setCar (trunc s.w v)
  | .blk0 => { s with blk0 := trunc s.w v }
  | .blk1 => { s with blk1 := trunc s.w v }
  | .blk2 => { s with blk2 := trunc s.w v }
  | .blk3 => { s with blk3 := trunc s.w v }
  | .haState => s.setHalf .A { s.ha with state := trunc s.w v }
  | .haPrev => s.setHalf .A { s.ha with prev := trunc s.w v }
  | .hbState => s.setHalf .B { s.hb with state := trunc s.w v }
  | .hbPrev => s.setHalf .B { s.hb with prev := trunc s.w v }
  | .key j => (s.setKey (s.key.insert j (trunc s.w v))).setSchedValid false
  | .rk i => (s.setRk (s.rk.insert i (trunc s.w v))).setSchedValid false
  | .reserved => s

/-- The registers of one half. -/
def halfSet : Half → List Reg
  | .A => [.haState, .haPrev]
  | .B => [.hbState, .hbPrev]

/-- The write set of each command besides the flags of STATUS (`30_encoding.md` R116); `n` is 2*R. -/
def writeSet (i : Instr) (n : Nat) : List Reg :=
  match i with
  | .nop => []
  | .nbidx _ _ _ => [.res]
  | .rulebit _ _ _ _ => [.res]
  | .castep _ _ => [.car, .lastRule]
  | .mload h _ => halfSet h
  | .mstore .A _ => [.blk0, .blk1]
  | .mstore .B _ => [.blk2, .blk3]
  | .mxs .A _ => [.haState]
  | .mxs .B _ => [.hbState]
  | .mxp .A _ => [.haPrev]
  | .mxp .B _ => [.hbPrev]
  | .mstep h _ => halfSet h ++ [.lastRule]
  | .msel _ => [.res, .lastRule]
  | .mmorph h => halfSet h ++ [.lastRule]
  | .ksrun => (List.range n).map .rk ++ [.lastRule]
  | .ernd _ => halfSet .A ++ halfSet .B ++ [.lastRule]
  | .drnd _ => halfSet .A ++ halfSet .B ++ [.lastRule]
  | .enc => halfSet .A ++ halfSet .B ++ [.blk0, .blk1, .blk2, .blk3, .lastRule]
  | .dec => halfSet .A ++ halfSet .B ++ [.blk0, .blk1, .blk2, .blk3, .lastRule]

/-- A register the running command writes at its completion (`70_reset_and_hazards.md` R271); STATUS is always coherent
and never one of them (R272). -/
def inFlight (r : Reg) (s : State) : Bool :=
  match s.running with
  | none => false
  | some q => decide (r ∈ writeSet q.task.op (ksLength s))

/-- The unspecified value a read of an in-flight register returns: a free value of the register's width
(`70_reset_and_hazards.md` R271, log 4). -/
def freeRead (r : Reg) (s : State) : Word :=
  trunc (if r = .lastRule then 8 else s.w) (Config.busyRead s.freeReads)

/-- A legal host read (`20_memory.md` R78, `70_reset_and_hazards.md` R271). -/
def readAccess (r : Reg) (s : State) : State :=
  if inFlight r s then { s with response := some (.okRead (freeRead r s)), freeReads := s.freeReads + 1 }
  else s.respond (.okRead (readReg r s))

/-- A legal host write: while busy, one outside CTRL and STATUS is dropped with ERR_BUSY
(`70_reset_and_hazards.md` R270). -/
def writeAccess (r : Reg) (v : Word) (s : State) : State :=
  if s.busy && !decide (r = .ctrl ∨ r = .status) then s.recordErr .busy else writeReg r v s

/-- The only legal access: 8 bytes at an offset with addr[2:0] = 0 (`20_memory.md` R73). -/
def legalAccess (addr : BitVec 12) (size : Nat) : Bool := decide (size = 8 ∧ addr.toNat % 8 = 0)

/-- A host access and its response; an illegal one is answered ERROR and changes nothing (`20_memory.md` R71, R73). -/
def performAccess (a : Access) (s : State) : State :=
  match a with
  | .read addr size => if legalAccess addr size then readAccess (regAt s.params addr) s else s.respond .error
  | .write addr size data =>
    if legalAccess addr size then (writeAccess (regAt s.params addr) data s).respond .okWrite else s.respond .error

/-- A clock edge with `rst` asserted: the reset state of `10_state.md` R56, the RAM contents drawn anew
(`70_reset_and_hazards.md` R260, R261; log 3). What the outside world does next is no state of the block and stays. -/
def resetBlock (s : State) : State :=
  { State.resetOf s.params (s.ramEpoch + 1) with inputs := s.inputs, freeReads := s.freeReads }

/-- A command issued at command level (`30_encoding.md` R115, log 7): a value that is no command is refused with its
code (ERR_BUSY first, R234), a command is carried out by `exec`. -/
def commandEvent (v : Word) (s : State) : Host.Outcome State Fault Refusal :=
  match decode v with
  | .ok i => exec i (s.respond .okWrite)
  | .error e => .next ((s.respond .okWrite).recordErr (if s.busy then .busy else decodeErrCode e))

/-- What one event of the outside world does. Every event takes a clock edge (`20_memory.md` R71: "Every state change
happens at a rising edge"; R80), so the sequencer goes on at it whatever the host does, and no stream of accesses can
stall a command (`70_reset_and_hazards.md` R278; log 8). At one edge the sequencer goes first, then the access or
command (log 17). -/
def stepEvent (e : Event) (s : State) : Host.Outcome State Fault Refusal :=
  match e with
  | .access a => .next (performAccess a (clockEdge s))
  | .clock => .next (clockEdge s)
  | .rst _ => .next (resetBlock s)
  | .command v => commandEvent v (clockEdge s)

/-- The state with its next event taken and no answer given yet. -/
def State.afterInput (s : State) (rest : List Event) : State := { s with inputs := rest, response := none }

/-- The state with `v` as the next command issued. -/
def State.pushCommand (s : State) (v : Word) : State := { s with inputs := .command v :: s.inputs }

end Sys2Proof.Machine
end

