-- ==== Sys2Proof/Machine/Step.lean ====
section
/-! DEFINITION. One step of the machine: the next event of the outside world, or a clock edge when there is none. -/

namespace Sys2Proof.Machine

/-- One step: one clock edge, or a command issued at command level (logs 6, 7, 8).
The block fetches nothing (`10_state.md` R53): what comes next is what the host does. -/
def step (s : State) : Host.Outcome State Fault Refusal :=
  match s.inputs with
  | [] => stepEvent .clock (s.afterInput [])
  | e :: rest => stepEvent e (s.afterInput rest)

/-- The state in which the very next step runs the instruction whose bits are `w`, `nbits` of them given: that word is
the next command the host issues (log 11). -/
def State.withFetchWord (s : State) (nbits w : Nat) : State := s.pushCommand (BitVec.ofNat 64 (w % 2 ^ nbits))

end Sys2Proof.Machine
end

