-- ==== Sys2Proof/Safety.lean ====
section
/-! DEFINITION. What claims about runs are stated in: many steps, and the invariant of the states a run can reach. -/

namespace Sys2Proof.Machine

/-- `n` steps, stopping at the first fault or refusal. -/
def steps : Nat → State → Host.Outcome State Fault Refusal
  | 0, s => .next s
  | n + 1, s =>
    match step s with
    | .next t => steps n t
    | .fault r => .fault r
    | .refused r => .refused r

/-- A list of commands carried out one after another at command level (`30_encoding.md` R115). -/
def execAll : List Instr → State → Host.Outcome State Fault Refusal
  | [], s => .next s
  | i :: is, s =>
    match exec i s with
    | .next t => execAll is t
    | .fault r => .fault r
    | .refused r => .refused r

/-- The state after one event is taken and answered: its input consumed, the port's answer `a`, an error recorded if
`code` is some (`10_state.md` R51). Nothing else is changed. -/
def State.answered (s : State) (rest : List Event) (a : Response) (code : Option ErrCode) : State :=
  { s with
    inputs := rest
    response := some a
    err := match code with
      | none => s.err
      | some c => if s.err = .none then c else s.err }

/-- The rows of spec/opcode_table.json as (match, mask), in the table's order (`30_encoding.md` R107, R108). -/
def opcodeRows : List (Word × Word) :=
  [(0x00, 0xFFFFFFFFFFFFFFFF), (0x01, 0xFFFFFFFFFFF8FFFF), (0x02, 0xFFFFFFFFFFF800FF), (0x03, 0xFFFFFFFFFFFD00FF),
    (0x10, 0xFFFFFFFFFFFCFFFF), (0x11, 0xFFFFFFFFFFFCFFFF), (0x12, 0xFFFFFFFFFFFE00FF), (0x13, 0xFFFFFFFFFFFE00FF),
    (0x14, 0xFFFFFFFFFFFE00FF), (0x15, 0xFFFFFFFFFFFEFFFF), (0x16, 0xFFFFFFFFFFFEFFFF), (0x20, 0xFFFFFFFFFFFFFFFF),
    (0x30, 0xFFFFFFFFFFFF00FF), (0x31, 0xFFFFFFFFFFFF00FF), (0x32, 0xFFFFFFFFFFFFFFFF), (0x33, 0xFFFFFFFFFFFFFFFF)]

/-- KMAX written out for each width (`00_scope.md` R10). -/
def kmaxTable : Width → Nat
  | .w16 => 128
  | .w32 => 64
  | .w64 => 32

/-- The code with which a value written to CMD while idle is refused, read off the bits of the value and the registers
in the order of `30_encoding.md` R112; `none` when every check passes. -/
def refusalCode (v : Word) (s : State) : Option ErrCode :=
  let op := v.toNat % 256
  let kidx := v.toNat / 256 % 256
  match opcodeRows.find? fun row => row.1.toNat = op with
  | none => some .opcode
  | some row =>
    if v &&& row.2 ≠ row.1 then some .reserved
    else if op ∈ [0x20, 0x32, 0x33] ∧ (s.rounds.toNat = 0 ∨ s.params.rmax < s.rounds.toNat) then some .rounds
    else if op = 0x20 ∧ (s.keylen.toNat = 0 ∨ kmaxTable s.params.width < s.keylen.toNat) then some .keylen
    else if op ∈ [0x12, 0x13] ∧ 2 * s.params.rmax ≤ kidx then some .kidx
    else if op = 0x30 ∧ 2 * s.params.rmax ≤ kidx + 1 then some .kidx
    else if op = 0x31 ∧ (kidx = 0 ∨ 2 * s.params.rmax ≤ kidx) then some .kidx
    else none

/-- R is legal: 1 to RMAX (`10_state.md` R34). -/
def State.RoundsLegal (s : State) : Prop := 1 ≤ s.r ∧ s.r ≤ s.params.rmax

/-- K is legal: 1 to KMAX (`10_state.md` R35). -/
def State.KeylenLegal (s : State) : Prop := 1 ≤ s.k ∧ s.k ≤ kmax s.params

/-- A slot holds a W-bit value: bits [63:W] are 0 (`10_state.md` R44). -/
def Fits (w : Nat) (v : Word) : Prop := v.toNat < 2 ^ w

/-- Both generations of a half are W-bit values. -/
def HalfRegs.Fits (w : Nat) (g : HalfRegs) : Prop := Machine.Fits w g.state ∧ Machine.Fits w g.prev

/-- A RAM of `size` entries: canonical form, existing indexes only, W-bit values (`10_state.md` R45, R46). -/
def Memory.Ok (w size : Nat) (m : Memory) : Prop := m.wf = true ∧ ∀ e ∈ m, e.1 < size ∧ Machine.Fits w e.2

/-- The registers and RAMs of a reachable state hold W-bit values, and only entries that exist. -/
structure State.DataOk (s : State) : Prop where
  res : Fits s.w s.res
  car : Fits s.w s.car
  blk0 : Fits s.w s.blk0
  blk1 : Fits s.w s.blk1
  blk2 : Fits s.w s.blk2
  blk3 : Fits s.w s.blk3
  ha : s.ha.Fits s.w
  hb : s.hb.Fits s.w
  key : s.key.Ok s.w (kmax s.params)
  rk : s.rk.Ok s.w (rkSize s.params)

/-- The sequencer's working state of a KSRUN is one that its own steps reach (`44_key_schedule.md` R183). -/
structure KsWork.Ok (s : State) (q : KsWork) : Prop where
  fill : q.fill ≤ ksLength s
  length : q.sched.length = q.fill
  fits : ∀ v ∈ q.sched, Fits s.w v
  passes : q.t ≤ ksPasses s
  filled : 0 < q.t → q.fill = ksLength s
  i : q.i < ksLength s
  j : q.j < s.k

/-- The task in flight is one the block accepted: its checks passed (`30_encoding.md` R112) and its counters are in
range (`10_state.md` R54). -/
def Task.Ok (s : State) : Task → Prop
  | .unit i => i.wellFormed = true ∧ check i s = none
  | .enc rnd k => roundsCheck s = none ∧ rnd ≤ s.r ∧ k = 2 * rnd
  | .dec rnd k => roundsCheck s = none ∧ rnd ≤ s.r ∧ k = 2 * s.r - 1 - 2 * rnd
  | .ksrun q => ksrunCheck s = none ∧ q.Ok s ∧ s.schedValid = false

/-- The invariant of reachable states: the data is in range; while a command runs it has at least one cycle left, its
task is one the block accepted, and DONE is 0 unless it completes (`10_state.md` R49). -/
structure State.Inv (s : State) : Prop where
  data : s.DataOk
  task : ∀ q, s.running = some q → q.task.Ok s ∧ 1 ≤ q.left ∧ s.done = false

end Sys2Proof.Machine
end

