-- ==== Sys2Proof/Certificates/Slice0/Obligations.lean ====
section
/-! DEFINITION. The statements about the block, each a proposition for the provers. A statement of a command's result
is a completion statement: it says that `exec` answers the next state given, under hypotheses on the state and the
operands alone, and the equation of states is its frame: every field not named is as before.

A step is one clock edge, a command-level one apart (logs 7, 8). `clockEdge s` is the state the sequencer
reaches at it, which for an idle block is `s` (HostCannotStallTheSequencer says so); the
access or command presented at that edge comes after it, which is the model's choice (log 17). -/

open Sys2Proof Sys2Proof.Machine

/-! ## Encoding -/

/-- Encoding a well-formed command (`30_encoding.md` R118) and decoding the word gives the command back, every operand
at every value its field admits. -/
def Obligations.DecodeEncodeRoundTrip : Prop :=
  ∀ i : Instr, i.wellFormed = true → decode (encode i) = .ok i

/-- A value that decodes has one meaning: the command is well formed and its encoding is that value
(`30_encoding.md` R117). -/
def Obligations.DecodedWordHasOneMeaning : Prop :=
  ∀ (v : Word) (i : Instr), decode v = .ok i → i.wellFormed = true ∧ encode i = v

/-- The encodings of `30_encoding.md` R118 and the examples of R132, R133, R143, R151, R155, R157, R201, R202 decode to
the commands they stand for. -/
def Obligations.SpecExampleWordsDecode : Prop :=
  decode 0x00060001 = .ok (.nbidx true true false) ∧ decode 0x00026E02 = .ok (.rulebit 110 false true false) ∧
    decode 0x00025A03 = .ok (.castep 90 .zero) ∧ decode 0x00020010 = .ok (.mload .A true) ∧
    decode 0x00010113 = .ok (.mxp .B 1) ∧ decode 0x00001E14 = .ok (.mstep .A 30) ∧ decode 0x00000020 = .ok .ksrun ∧
    decode 0x00000030 = .ok (.ernd 0) ∧ decode 0x00000131 = .ok (.drnd 1) ∧ decode 0x00000032 = .ok .enc

/-- A value with an undefined opcode in bits [7:0] is refused with ERR_OPCODE, whatever its other bits
(`30_encoding.md` R109), by a write to CMD or as the model's command-level event (log 7). -/
def Obligations.UndefinedOpcodeRefused : Prop :=
  ∀ (s : State) (v : Word) (rest : List Event) (e : Event), s.running = none →
    (0x04 ≤ v.toNat % 256 ∧ v.toNat % 256 ≤ 0x0F ∨ 0x17 ≤ v.toNat % 256 ∧ v.toNat % 256 ≤ 0x1F ∨
      0x21 ≤ v.toNat % 256 ∧ v.toNat % 256 ≤ 0x2F ∨ 0x34 ≤ v.toNat % 256) →
    e = .command v ∨ e = .access (.write 0x020 8 v) → s.inputs = e :: rest →
    step s = .next (s.answered rest .okWrite (some .opcode))

/-- A value of a defined opcode is legal exactly when (v & mask) = match of its row; otherwise it is refused with
ERR_RESERVED (`30_encoding.md` R108), by a write to CMD or as the model's command-level event (log 7). -/
def Obligations.ReservedBitsRefused : Prop :=
  ∀ (s : State) (v m k : Word) (rest : List Event) (e : Event), s.running = none → (m, k) ∈ opcodeRows →
    v.toNat % 256 = m.toNat → e = .command v ∨ e = .access (.write 0x020 8 v) → s.inputs = e :: rest →
    if v &&& k = m then ∃ i, decode v = .ok i ∧ i.opcode = m.toNat
    else decode v = .error .reservedBits ∧ step s = .next (s.answered rest .okWrite (some .reserved))

/-! ## Steps -/

/-- A step runs the decoded command: when the next input issues a value that decodes to `i`, the step is `exec i` of
the state with that input taken and answered, after what the sequencer does at that edge, which for an idle block is
nothing. The command-level event is the model's form of `30_encoding.md` R115 (log 7).
That at an edge with both the sequencer comes before the access is the model's choice (log 17); `20_memory.md` R81
leaves the order open. -/
def Obligations.StepRunsDecodedCommand : Prop :=
  ∀ (s : State) (v : Word) (rest : List Event) (i : Instr), s.inputs = .command v :: rest → decode v = .ok i →
    step s = exec i ((clockEdge s).answered rest .okWrite none) ∧
      (s.running = none → step s = exec i (s.answered rest .okWrite none))

/-- Nothing stops the block: a step from any state answers a next state (`60_exceptions.md` R230,
`70_reset_and_hazards.md` R278). -/
def Obligations.EveryStepAnswersNext : Prop := ∀ s : State, ∃ t, step s = .next t

/-- Events are taken one at a time in the order they are presented (`20_memory.md` R72), and the instance's width and
capacity never change (`00_scope.md` R7). -/
def Obligations.StepKeepsParamsAndOrder : Prop :=
  ∀ s t : State, step s = .next t → t.params = s.params ∧ t.inputs = s.inputs.tail

/-- An error once recorded stays until ERRCLR is written or the block is reset: no command, access or clock edge changes
a nonzero ERR otherwise (`10_state.md` R51, `60_exceptions.md` R233). -/
def Obligations.RecordedErrorIsSticky : Prop :=
  ∀ (s t : State), step s = .next t → s.err ≠ .none → t.err ≠ s.err →
    ∃ rest, (∃ a, s.inputs = .rst a :: rest ∧ t.err = .none) ∨
      (∃ v : Word, s.inputs = .access (.write 0x010 8 v) :: rest ∧ v.getLsbD 8 = true ∧ t.err = .none)

/-! ## Issue, refusal, acceptance, completion -/

/-- A write of `v` to CMD (`30_encoding.md` R111), performed on the state the sequencer reaches at that edge: dropped
with ERR_BUSY while a command runs; otherwise decoded and checked at once, and refused with the code of the first check
of R112 that fails, or accepted, before the next access.
That at an edge with both the sequencer comes before the access is the model's choice (log 17); `20_memory.md` R81
leaves the order open. -/
def Obligations.CmdWriteChecksInOrder : Prop :=
  ∀ (s : State) (v : Word) (rest : List Event), s.inputs = .access (.write 0x020 8 v) :: rest →
    let u := clockEdge s
    if u.running ≠ none then step s = .next (u.answered rest .okWrite (some .busy))
    else
      match refusalCode v u with
      | some code => step s = .next (u.answered rest .okWrite (some code))
      | none => ∃ t, step s = .next t ∧ t.running ≠ none ∧ t.err = u.err

/-- Acceptance (`30_encoding.md` R113): BUSY is 1, DONE is 0, for KSRUN SCHED_VALID is 0, the sequencer holds the command
and has LAT cycles to go; no register outside the command's write set changes. -/
def Obligations.AcceptanceStartsCommand : Prop :=
  ∀ (s : State) (v : Word) (i : Instr) (rest : List Event), s.running = none → decode v = .ok i →
    refusalCode v s = none → s.inputs = .access (.write 0x020 8 v) :: rest →
    ∃ t q, step s = .next t ∧ t.running = some q ∧ q.task.op = i ∧ q.left = latency i s ∧ t.busy = true ∧
      t.done = false ∧ t.schedValid = (if i = .ksrun then false else s.schedValid) ∧
      ∀ r, r ≠ .status → r ∉ writeSet i (2 * s.rounds.toNat) → readReg r t = readReg r s

/-- The cycle-level machine refines the command-level one (`30_encoding.md` R115): a value written to CMD while idle
and accepted, then LAT clock edges, gives exactly the state that `exec` gives, every register and RAM entry. -/
def Obligations.WriteThenClocksIsExec : Prop :=
  ∀ (s : State) (v : Word) (i : Instr) (rest : List Event), s.running = none → decode v = .ok i → check i s = none →
    s.inputs = .access (.write 0x020 8 v) :: (List.replicate (latency i s) .clock ++ rest) →
    ∃ t, exec i s = .next t ∧ steps (latency i s + 1) s = .next { t with inputs := rest, response := none }

/-- Forward progress (`70_reset_and_hazards.md` R278, `30_encoding.md` R114, `10_state.md` R50): whatever the host does
at the clock edges, reset apart, a running command goes on, one cycle fewer left at each, with DONE 0, and completes
at its last: BUSY falls and DONE is set at the same edge. A host that reads STATUS at that edge sees both.
That a STATUS read at the completing edge already sees BUSY 0 and DONE 1 is the model's choice (log 17): at an edge with
both the sequencer comes before the access, an order that `20_memory.md` R81 leaves open and R278 does not settle. -/
def Obligations.BusyFallsAfterLatency : Prop :=
  ∀ (s : State) (q : Running) (events : List Event) (last : Event) (rest : List Event), s.running = some q →
    s.done = false → check q.task.op s = none → q.left = events.length + 1 → (∀ a, .rst a ∉ events) →
    s.inputs = events ++ last :: rest →
    (∀ n, n < q.left → ∃ t p, steps n s = .next t ∧ t.running = some p ∧ p.task.op = q.task.op ∧
      p.left + n = q.left ∧ t.done = false) ∧
    (last = .clock → ∃ t, steps q.left s = .next t ∧ t.busy = false ∧ t.done = true) ∧
    (last = .access (.read 0x010 8) → ∃ t x, steps q.left s = .next t ∧ t.busy = false ∧ t.done = true ∧
      t.response = some (.okRead x) ∧ x.getLsbD 0 = false ∧ x.getLsbD 1 = true)

/-- LAT is at least 1 and depends on the command's opcode and W alone, for ENC and DEC on R too, for KSRUN on R and
KEYLEN too (`70_reset_and_hazards.md` R276): on no key word, schedule entry, block word, state register or selected
rule. -/
def Obligations.LatencyDependsOnNoData : Prop :=
  ∀ (i i' : Instr) (s s' : State), i.opcode = i'.opcode → s.params.width = s'.params.width →
    (i = .ksrun ∨ i = .enc ∨ i = .dec → s.rounds = s'.rounds) → (i = .ksrun → s.keylen = s'.keylen) →
    1 ≤ latency i s ∧ latency i s = latency i' s'

/-- Any value written to CMD while a command runs is dropped with ERR_BUSY, whatever it contains (`60_exceptions.md`
R234), and so is one issued as the model's command-level event (log 7); and `exec` of a command in a busy state is that
drop.
That at an edge with both the sequencer comes before the access is the model's choice (log 17); `20_memory.md` R81
leaves the order open. -/
def Obligations.BusyDropsEveryCommand : Prop :=
  (∀ (s : State) (v : Word) (rest : List Event) (e : Event), (clockEdge s).running ≠ none →
      e = .access (.write 0x020 8 v) ∨ e = .command v → s.inputs = e :: rest →
      step s = .next ((clockEdge s).answered rest .okWrite (some .busy))) ∧
    ∀ (i : Instr) (s : State), s.running ≠ none →
      exec i s = .next { s with err := if s.err = .none then .busy else s.err }

/-- Where KSRUN, ENC and DEC are turned away, changing nothing but ERR (`30_encoding.md` R112 checks 3 and 4,
`60_exceptions.md` R233): CFG.ROUNDS = 0 or above RMAX records ERR_ROUNDS; then, for KSRUN, KEYLEN = 0 or above KMAX
records ERR_KEYLEN. -/
def Obligations.RoundsOrKeylenRefused : Prop :=
  ∀ (s : State) (i : Instr), s.running = none →
    ((s.rounds.toNat = 0 ∨ s.params.rmax < s.rounds.toNat) → i = .ksrun ∨ i = .enc ∨ i = .dec →
      exec i s = .next { s with err := if s.err = .none then .rounds else s.err }) ∧
    (s.RoundsLegal → (s.keylen.toNat = 0 ∨ kmaxTable s.params.width < s.keylen.toNat) → i = .ksrun →
      exec i s = .next { s with err := if s.err = .none then .keylen else s.err })

/-- Where MXS, MXP, ERND and DRND are turned away: an index that names no round key records ERR_KIDX and changes nothing
else (`30_encoding.md` R112 check 5). -/
def Obligations.KeyIndexOutOfRangeRefused : Prop :=
  ∀ (s : State) (i : Instr) (h : Half) (kidx : Nat), s.running = none →
    (2 * s.params.rmax ≤ kidx ∧ (i = .mxs h kidx ∨ i = .mxp h kidx)) ∨
      (2 * s.params.rmax ≤ kidx + 1 ∧ i = .ernd kidx) ∨ ((kidx = 0 ∨ 2 * s.params.rmax ≤ kidx) ∧ i = .drnd kidx) →
    exec i s = .next { s with err := if s.err = .none then .kidx else s.err }

/-- Nothing outside a command's write set changes (`30_encoding.md` R116): every register and RAM entry not in it, and
not STATUS, reads as before, whether the command is accepted, refused or dropped. -/
def Obligations.OnlyTheWriteSetChanges : Prop :=
  ∀ (i : Instr) (s t : State) (r : Reg), exec i s = .next t → r ≠ .status →
    r ∉ writeSet i (2 * s.rounds.toNat) → readReg r t = readReg r s

/-! ## Neighbourhood and elementary automaton -/

/-- NOP has no datapath effect: it sets DONE (`46_control.md` R220). -/
def Obligations.NopOnlyCompletes : Prop := ∀ s : State, s.running = none → exec .nop s = .next { s with done := true }

/-- NBIDX writes 4*NL + 2*NC + NR to RES and completes (`40_neighborhood.md` R130, R132). -/
def Obligations.NbidxWritesIndex : Prop :=
  ∀ (s : State) (l c r : Bool), s.running = none →
    exec (.nbidx l c r) s =
      .next { s with res := BitVec.ofNat 64 (4 * l.toNat + 2 * c.toNat + r.toNat), done := true }

/-- RULEBIT writes to RES the bit of the rule that the neighbourhood selects, of weight 2^idx (`40_neighborhood.md`
R131, R133). -/
def Obligations.RulebitWritesRuleBit : Prop :=
  ∀ (s : State) (rule : Rule) (l c r : Bool), s.running = none →
    exec (.rulebit rule l c r) s =
      .next { s with
        res := BitVec.ofNat 64 (rule.toNat / 2 ^ (4 * l.toNat + 2 * c.toNat + r.toNat) % 2), done := true }

/-- CASTEP replaces CAR by its next generation: cell c of the result is the bit of the rule selected by the old left
neighbour, the old cell and the old right neighbour under the boundary policy, bits above W are 0, and LASTRULE is the
rule (`41_elementary_ca.md` R140 to R143). -/
def Obligations.CastepComputesEveryCell : Prop :=
  ∀ (s : State) (rule : Rule) (bnd : Boundary), s.running = none →
    ∃ t, exec (.castep rule bnd) s = .next t ∧ t = { s with car := t.car, lastRule := rule, done := true } ∧
      (∀ c, s.params.width.bits ≤ c → t.car.getLsbD c = false) ∧
      ∀ c, c < s.params.width.bits →
        let left := match bnd with
          | .periodic => s.car.getLsbD ((c + (s.params.width.bits - 1)) % s.params.width.bits)
          | .zero => if c = 0 then false else s.car.getLsbD (c - 1)
        let right := match bnd with
          | .periodic => s.car.getLsbD ((c + 1) % s.params.width.bits)
          | .zero => if c + 1 = s.params.width.bits then false else s.car.getLsbD (c + 1)
        t.car.getLsbD c = rule.getLsbD (4 * left.toNat + 2 * (s.car.getLsbD c).toNat + right.toNat)

/-- Extremal rules: CASTEP 0 drives CAR to all zero and CASTEP 255 to all ones, under both policies
(`41_elementary_ca.md` R144). -/
def Obligations.CastepExtremalRules : Prop :=
  ∀ (s : State) (bnd : Boundary), s.running = none →
    exec (.castep 0 bnd) s = .next { s with car := 0, lastRule := 0, done := true } ∧
      exec (.castep 255 bnd) s =
        .next { s with car := BitVec.ofNat 64 (2 ^ s.params.width.bits - 1), lastRule := 255, done := true }

/-- The bit-parallel form of CA (`41_elementary_ca.md` R145): with Lv and Rv the left and right neighbours of every
cell, CA is the OR over the indexes whose rule bit is 1 of the product of the three literals; rules 240, 170 and 51 are
Lv, Rv and the complement. -/
def Obligations.CaBitParallelForm : Prop :=
  ∀ (width : Width) (x : Word) (rule : Rule) (bnd : Boundary), Fits width.bits x →
    let w := width.bits
    let inv := fun v : Word => trunc w (~~~v)
    let lv := match bnd with
      | .periodic => trunc w (x <<< 1) ||| x >>> (w - 1)
      | .zero => trunc w (x <<< 1)
    let rv := match bnd with
      | .periodic => x >>> 1 ||| trunc w (x <<< (w - 1))
      | .zero => x >>> 1
    let term := fun idx : Nat =>
      (if idx.testBit 2 then lv else inv lv) &&& (if idx.testBit 1 then x else inv x) &&&
        (if idx.testBit 0 then rv else inv rv)
    ca w x rule bnd = (List.range 8).foldl (fun acc idx => if rule.getLsbD idx then acc ||| term idx else acc) 0 ∧
      ca w x 240 bnd = lv ∧ ca w x 170 bnd = rv ∧ ca w x 51 bnd = inv x

/-! ## Second-order automaton -/

/-- MLOAD builds a half from its pair of the block register: FWD gives prev = high, state = low; REV the exchange
(`42_meca.md` R150, R151). -/
def Obligations.MloadSplitsSeed : Prop :=
  ∀ (s : State) (rev : Bool), s.running = none →
    exec (.mload .A rev) s =
        .next { s with
          ha := if rev then ⟨s.blk0, s.blk1⟩ else ⟨s.blk1, s.blk0⟩, done := true } ∧
      exec (.mload .B rev) s =
        .next { s with
          hb := if rev then ⟨s.blk2, s.blk3⟩ else ⟨s.blk3, s.blk2⟩, done := true }

/-- MSTORE writes a half to its pair of the block register: (prev, state) in encrypt order, (state, prev) in decrypt
order (`42_meca.md` R152). -/
def Obligations.MstoreWritesBothOrders : Prop :=
  ∀ s : State, s.running = none →
    exec (.mstore .A .encrypt) s = .next { s with blk0 := s.ha.prev, blk1 := s.ha.state, done := true } ∧
      exec (.mstore .A .decrypt) s = .next { s with blk0 := s.ha.state, blk1 := s.ha.prev, done := true } ∧
      exec (.mstore .B .encrypt) s = .next { s with blk2 := s.hb.prev, blk3 := s.hb.state, done := true } ∧
      exec (.mstore .B .decrypt) s = .next { s with blk2 := s.hb.state, blk3 := s.hb.prev, done := true }

/-- MXS XORs a round key into the current generation of its half, for every index below 2*RMAX (`42_meca.md` R154). -/
def Obligations.MxsXorsCurrentGeneration : Prop :=
  ∀ (s : State) (kidx : Nat), s.running = none → kidx < 2 * s.params.rmax →
    exec (.mxs .A kidx) s = .next { s with ha := ⟨s.ha.state ^^^ s.rkAt kidx, s.ha.prev⟩, done := true } ∧
      exec (.mxs .B kidx) s = .next { s with hb := ⟨s.hb.state ^^^ s.rkAt kidx, s.hb.prev⟩, done := true }

/-- MXP XORs a round key into the previous generation of its half, for every index below 2*RMAX (`42_meca.md` R155). -/
def Obligations.MxpXorsPreviousGeneration : Prop :=
  ∀ (s : State) (kidx : Nat), s.running = none → kidx < 2 * s.params.rmax →
    exec (.mxp .A kidx) s = .next { s with ha := ⟨s.ha.state, s.ha.prev ^^^ s.rkAt kidx⟩, done := true } ∧
      exec (.mxp .B kidx) s = .next { s with hb := ⟨s.hb.state, s.hb.prev ^^^ s.rkAt kidx⟩, done := true }

/-- MSTEP is one reversible generation of its half under an explicit rule, always Periodic: the new state is prev XOR
CA(state), the new prev is the old state, LASTRULE is the rule (`42_meca.md` R156, R157). -/
def Obligations.MstepIsOneGeneration : Prop :=
  ∀ (s : State) (rule : Rule), s.running = none →
    exec (.mstep .A rule) s =
        .next { s with
          ha := ⟨s.ha.prev ^^^ ca s.params.width.bits s.ha.state rule .periodic, s.ha.state⟩
          lastRule := rule, done := true } ∧
      exec (.mstep .B rule) s =
        .next { s with
          hb := ⟨s.hb.prev ^^^ ca s.params.width.bits s.hb.state rule .periodic, s.hb.state⟩
          lastRule := rule, done := true }

/-- Running a half backwards (`42_meca.md` R159): after MSTEP with a rule, the half loaded with its generations exchanged
and stepped with the same rule holds the generations it began with, exchanged. -/
def Obligations.MstepRunsBackwards : Prop :=
  ∀ (s : State) (h : Half) (rule : Rule), s.running = none →
    ∃ t u, exec (.mstep h rule) s = .next t ∧
      exec (.mstep h rule) (t.setHalf h ⟨(t.half h).prev, (t.half h).state⟩) = .next u ∧
      u = { s.setHalf h ⟨(s.half h).prev, (s.half h).state⟩ with lastRule := rule, done := true }

/-! ## Morph -/

/-- MSEL writes POOL7[state mod 7] to RES and LASTRULE and leaves the half alone (`43_morph.md` R170 to R172). -/
def Obligations.MselReadsThePool : Prop :=
  ∀ (s : State) (h : Half), s.running = none →
    ∃ rule : Rule, [75, 86, 89, 149, 166, 173, 229][(s.half h).state.toNat % 7]? = some rule ∧
      exec (.msel h) s = .next { s with res := rule.setWidth 64, lastRule := rule, done := true }

/-- MMORPH steps its half under POOL7[state mod 7], chosen before the step (`43_morph.md` R171, R173). -/
def Obligations.MmorphStepsUnderSelectedRule : Prop :=
  ∀ (s : State) (h : Half), s.running = none →
    ∃ rule : Rule, [75, 86, 89, 149, 166, 173, 229][(s.half h).state.toNat % 7]? = some rule ∧
      exec (.mmorph h) s =
        .next { s.setHalf h
            ⟨(s.half h).prev ^^^ ca s.params.width.bits (s.half h).state rule .periodic, (s.half h).state⟩ with
          lastRule := rule, done := true }

/-! ## Key schedule -/

/-- The seed constants: P and Q are the first W bits of e - 2 and of the golden ratio less 1, as integers
(`44_key_schedule.md` R181). -/
def Obligations.SeedConstantsAreFirstBits : Prop :=
  ∀ width : Width, ((ksP width).toNat : Int) = ⌊(Real.exp 1 - 2) * 2 ^ width.bits⌋ ∧
    ((ksQ width).toNat : Int) = ⌊((1 + Real.sqrt 5) / 2 - 1) * 2 ^ width.bits⌋

/-- KSRUN expands the key: the loops of R183, with the literal slot advance of R188, give the closed form of
`44_key_schedule.md` R189. Slot 0 is mixed with KEY[0] 3*max(K, 2R) times from P, RK[i] = P + i*Q modulo 2^W for the
other entries below 2R, entries from 2R on are unchanged, LASTRULE is the last pass's rule, SCHED_VALID is 1. -/
def Obligations.KsrunClosedForm : Prop :=
  ∀ s : State, s.running = none → s.RoundsLegal → s.KeylenLegal →
    let w := s.params.width.bits
    let n := 2 * s.rounds.toNat
    let passes := 3 * max s.keylen.toNat n
    let rule := fun x : Word => ([54, 110, 137] : List Rule).getD ((s.keyAt 0 ^^^ x).toNat % 3) 0
    let pass := fun x : Word => ca w (s.keyAt 0 ^^^ x) (rule x) .periodic
    ∃ t, exec .ksrun s = .next t ∧ t.rkAt 0 = pass^[passes] (ksP s.params.width) ∧
      (∀ i, 1 ≤ i → i < n →
        (t.rkAt i).toNat = ((ksP s.params.width).toNat + i * (ksQ s.params.width).toNat) % 2 ^ w) ∧
      (∀ i, n ≤ i → t.rkAt i = s.rkAt i) ∧
      t = { s with
        rk := t.rk, lastRule := rule (pass^[passes - 1] (ksP s.params.width)), schedValid := true, done := true }

/-! ## Block cipher -/

/-- ERND is one encryption round on both halves with RK[KIDX] and RK[KIDX+1], for KIDX + 1 below 2*RMAX
(`45_block_cipher.md` R201). -/
def Obligations.ErndIsOneRound : Prop :=
  ∀ (s : State) (kidx : Nat), s.running = none → kidx + 1 < 2 * s.params.rmax →
    let w := s.params.width.bits
    let a := s.ha.state ^^^ s.rkAt kidx
    let b := s.hb.state ^^^ s.rkAt (kidx + 1)
    exec (.ernd kidx) s =
      .next { s with
        ha := ⟨s.ha.prev ^^^ ca w a (sel a) .periodic, a⟩
        hb := ⟨s.hb.prev ^^^ ca w b (sel b) .periodic, b⟩
        lastRule := sel b, done := true }

/-- DRND is one decryption round on both halves with RK[KIDX] and RK[KIDX-1], for 1 ≤ KIDX below 2*RMAX
(`45_block_cipher.md` R202). -/
def Obligations.DrndIsOneRound : Prop :=
  ∀ (s : State) (kidx : Nat), s.running = none → 1 ≤ kidx → kidx < 2 * s.params.rmax →
    let w := s.params.width.bits
    exec (.drnd kidx) s =
      .next { s with
        ha := ⟨s.ha.prev ^^^ ca w s.ha.state (sel s.ha.state) .periodic, s.ha.state ^^^ s.rkAt (kidx - 1)⟩
        hb := ⟨s.hb.prev ^^^ ca w s.hb.state (sel s.hb.state) .periodic, s.hb.state ^^^ s.rkAt kidx⟩
        lastRule := sel s.ha.state, done := true }

/-- MMORPH equals MSEL then MSTEP with the selected rule but for RES, which MSEL writes (`43_morph.md` R173); ERND k
equals MXS A, k; MMORPH A; MXS B, k+1; MMORPH B, and DRND k equals MMORPH B; MXP B, k; MMORPH A; MXP A, k-1
(`45_block_cipher.md` R201, R202): the same state, every register. -/
def Obligations.CompositesAreUnitCommands : Prop :=
  ∀ (s : State) (h : Half) (k : Nat), s.running = none → k < 2 * s.params.rmax →
    (∃ t u, exec (.mmorph h) s = .next t ∧ execAll [.msel h, .mstep h t.lastRule] s = .next u ∧
      u = { t with res := u.res }) ∧
    (k + 1 < 2 * s.params.rmax →
      exec (.ernd k) s = execAll [.mxs .A k, .mmorph .A, .mxs .B (k + 1), .mmorph .B] s) ∧
    (1 ≤ k → exec (.drnd k) s = execAll [.mmorph .B, .mxp .B k, .mmorph .A, .mxp .A (k - 1)] s)

/-- ENC runs R rounds, each half on its own words and keys (`45_block_cipher.md` R203, R208): HA from (BLK[0], BLK[1])
with RK[0], RK[2], ..., HB from (BLK[2], BLK[3]) with RK[1], RK[3], ...; the output is [A.prev, A.state, B.prev,
B.state], and LASTRULE is the rule HB selects in the last round. -/
def Obligations.EncRunsEachHalf : Prop :=
  ∀ s : State, s.running = none → s.RoundsLegal →
    let n := s.rounds.toNat
    let round := fun (j : Nat) (g : HalfRegs) (m : Nat) =>
      mecaStep s.params.width.bits ⟨g.state ^^^ s.rkAt (2 * m + j), g.prev⟩ (sel (g.state ^^^ s.rkAt (2 * m + j)))
    let a := (List.range n).foldl (round 0) ⟨s.blk1, s.blk0⟩
    let b := (List.range n).foldl (round 1) ⟨s.blk3, s.blk2⟩
    exec .enc s =
      .next { s with
        ha := a, hb := b, blk0 := a.prev, blk1 := a.state, blk2 := b.prev, blk3 := b.state
        lastRule := sel b.prev, done := true }

/-- DEC runs R rounds from the last keys to the first, each half on its own words and keys (`45_block_cipher.md` R205,
R208); the output is [A.state, A.prev, B.state, B.prev], and LASTRULE is the rule HA selects in the last round. -/
def Obligations.DecRunsEachHalf : Prop :=
  ∀ s : State, s.running = none → s.RoundsLegal →
    let n := s.rounds.toNat
    let w := s.params.width.bits
    let round := fun (j : Nat) (g : HalfRegs) (m : Nat) =>
      (⟨g.prev ^^^ ca w g.state (sel g.state) .periodic, g.state ^^^ s.rkAt (2 * n - 1 - j - 2 * m)⟩ : HalfRegs)
    let a := (List.range n).foldl (round 1) ⟨s.blk0, s.blk1⟩
    let b := (List.range n).foldl (round 0) ⟨s.blk2, s.blk3⟩
    let beforeLast := (List.range (n - 1)).foldl (round 1) ⟨s.blk0, s.blk1⟩
    exec .dec s =
      .next { s with
        ha := a, hb := b, blk0 := a.state, blk1 := a.prev, blk2 := b.state, blk3 := b.prev
        lastRule := sel beforeLast.state, done := true }

/-- ENC is the unit sequence MLOAD A, FWD; MLOAD B, FWD; ERND 0; ERND 2; ...; ERND 2R-2; MSTORE A, E; MSTORE B, E
(`45_block_cipher.md` R204): the same state, every register. -/
def Obligations.EncIsUnitSequence : Prop :=
  ∀ s : State, s.running = none → s.RoundsLegal →
    exec .enc s =
      execAll ([.mload .A false, .mload .B false] ++ (List.range s.rounds.toNat).map (fun m => .ernd (2 * m)) ++
        [.mstore .A .encrypt, .mstore .B .encrypt]) s

/-- DEC is the unit sequence MLOAD A, REV; MLOAD B, REV; DRND 2R-1; ...; DRND 1; MSTORE A, D; MSTORE B, D
(`45_block_cipher.md` R206): the same state, every register. -/
def Obligations.DecIsUnitSequence : Prop :=
  ∀ s : State, s.running = none → s.RoundsLegal →
    exec .dec s =
      execAll ([.mload .A true, .mload .B true] ++
        (List.range s.rounds.toNat).map (fun m => .drnd (2 * s.rounds.toNat - 1 - 2 * m)) ++
        [.mstore .A .decrypt, .mstore .B .decrypt]) s

/-- Round trip (`45_block_cipher.md` R210): ENC followed by DEC, with the same CFG.ROUNDS and RK[], leaves BLK[] as it
was before ENC, for every block, schedule, width and legal round count. -/
def Obligations.DecUndoesEnc : Prop :=
  ∀ s : State, s.running = none → s.RoundsLegal →
    ∃ t u, exec .enc s = .next t ∧ exec .dec t = .next u ∧ u.blk0 = s.blk0 ∧ u.blk1 = s.blk1 ∧ u.blk2 = s.blk2 ∧
      u.blk3 = s.blk3

/-- The converse: DEC followed by ENC leaves BLK[] as it was, so ENC is a bijection on blocks with DEC its inverse
(`45_block_cipher.md` R212). -/
def Obligations.EncUndoesDec : Prop :=
  ∀ s : State, s.running = none → s.RoundsLegal →
    ∃ t u, exec .dec s = .next t ∧ exec .enc t = .next u ∧ u.blk0 = s.blk0 ∧ u.blk1 = s.blk1 ∧ u.blk2 = s.blk2 ∧
      u.blk3 = s.blk3

/-- The halves never interact (`45_block_cipher.md` R208): for ENC and for DEC, BLK[0], BLK[1] depend only on BLK[0],
BLK[1] and the even keys, BLK[2], BLK[3] only on BLK[2], BLK[3] and the odd keys. -/
def Obligations.HalvesNeverInteract : Prop :=
  ∀ (s s' : State) (i : Instr), s.running = none → s'.running = none → s.RoundsLegal → s.params = s'.params →
    s.rounds = s'.rounds → i = .enc ∨ i = .dec →
    ∃ t t', exec i s = .next t ∧ exec i s' = .next t' ∧
      (s.blk0 = s'.blk0 → s.blk1 = s'.blk1 → (∀ m, m < s.rounds.toNat → s.rkAt (2 * m) = s'.rkAt (2 * m)) →
        t.blk0 = t'.blk0 ∧ t.blk1 = t'.blk1) ∧
      (s.blk2 = s'.blk2 → s.blk3 = s'.blk3 →
        (∀ m, m < s.rounds.toNat → s.rkAt (2 * m + 1) = s'.rkAt (2 * m + 1)) →
        t.blk2 = t'.blk2 ∧ t.blk3 = t'.blk3)

/-! ## Host port -/

/-- An access of a size other than 8 bytes or at an offset with addr[2:0] ≠ 0 is answered ERROR, changes no state and
does not set ERR (`20_memory.md` R73): the state is the one the sequencer reaches at that edge without it.
That at an edge with both the sequencer comes before the access is the model's choice (log 17); `20_memory.md` R81
leaves the order open. -/
def Obligations.IllegalAccessAnsweredError : Prop :=
  ∀ (s : State) (addr : BitVec 12) (size : Nat) (data : Word) (a : Access) (rest : List Event),
    a = .read addr size ∨ a = .write addr size data → size ≠ 8 ∨ addr.toNat % 8 ≠ 0 →
    s.inputs = .access a :: rest → step s = .next ((clockEdge s).answered rest .error none)

/-- A legal access to a reserved offset, or to a KEY or RK entry the instance does not have, is answered OK: a read
returns 0, a write while idle is ignored and one while busy is dropped with ERR_BUSY (`20_memory.md` R76, R77).
That at an edge with both the sequencer comes before the access is the model's choice (log 17); `20_memory.md` R81
leaves the order open. -/
def Obligations.ReservedOffsetsReadZero : Prop :=
  ∀ (s : State) (addr : BitVec 12) (v : Word) (rest : List Event), addr.toNat % 8 = 0 →
    (0x058 ≤ addr.toNat ∧ addr.toNat < 0x080 ∨ 0x0C0 ≤ addr.toNat ∧ addr.toNat < 0x400 ∨
      0x400 + 8 * kmaxTable s.params.width ≤ addr.toNat ∧ addr.toNat < 0x800 ∨
      0x800 + 16 * s.params.rmax ≤ addr.toNat) →
    (s.inputs = .access (.read addr 8) :: rest → step s = .next ((clockEdge s).answered rest (.okRead 0) none)) ∧
      (s.inputs = .access (.write addr 8 v) :: rest →
        step s =
          .next ((clockEdge s).answered rest .okWrite (if (clockEdge s).running = none then none else some .busy)))

/-- A read has no side effects (`20_memory.md` R78): it changes nothing but the port's answer (and the model's own
counter of free reads) beside what the sequencer does at that edge. While idle it returns, offset by offset of the
address map (`20_memory.md` R75, `10_state.md` R32 to R46), the field of the state that the offset names, zero-extended:
CTRL's two enables, CFG, 0 for CMD, KEYLEN, RES, LASTRULE, the constants KS_P and KS_Q of R39, CAR, BLK[0..3], the two
halves, and every entry of KEY and RK the instance has. (ID and STATUS: IdReportsParameters, StatusReadAndWrite; the
other offsets: ReservedOffsetsReadZero.)
The values are those after the sequencer's part of the edge, so that a read at the edge that completes a command returns
the completed values: the model's choice (log 17), since `20_memory.md` R81 leaves the order at such an edge open. The
free-read counter is the model's own (log 4). -/
def Obligations.ReadsHaveNoSideEffects : Prop :=
  ∀ (s : State) (addr : BitVec 12) (size : Nat) (rest : List Event), s.inputs = .access (.read addr size) :: rest →
    let u := clockEdge s
    let registers : List (BitVec 12 × Word) :=
      [(0x008, BitVec.ofNat 64 (u.ieDone.toNat + 2 * u.ieErr.toNat)), (0x018, u.rounds.setWidth 64), (0x020, 0),
        (0x028, u.keylen.setWidth 64), (0x030, u.res), (0x038, u.lastRule.setWidth 64),
        (0x040, match u.params.width with | .w16 => 0xB7E1 | .w32 => 0xB7E15162 | .w64 => 0xB7E151628AED2A6A),
        (0x048, match u.params.width with | .w16 => 0x9E37 | .w32 => 0x9E3779B9 | .w64 => 0x9E3779B97F4A7C15),
        (0x050, u.car), (0x080, u.blk0), (0x088, u.blk1), (0x090, u.blk2), (0x098, u.blk3), (0x0A0, u.ha.state),
        (0x0A8, u.ha.prev), (0x0B0, u.hb.state), (0x0B8, u.hb.prev)]
    ∃ t, step s = .next t ∧ t = { u with inputs := rest, response := t.response, freeReads := t.freeReads } ∧
      (u.running = none → t.freeReads = u.freeReads) ∧
      (u.running = none → size = 8 →
        (∀ value, (addr, value) ∈ registers → t.response = some (.okRead value)) ∧
        (∀ j, j < kmaxTable u.params.width → addr.toNat = 0x400 + 8 * j →
          t.response = some (.okRead (u.keyAt j))) ∧
        ∀ i, i < 2 * u.params.rmax → addr.toNat = 0x800 + 8 * i → t.response = some (.okRead (u.rkAt i)))

/-- A read while busy (at an edge that does not complete the command) of a register outside the running command's write set returns its value as when idle, and STATUS
and CTRL always do (`70_reset_and_hazards.md` R271, R272).
One step is one clock edge, the sequencer first at it (logs 8, 17). -/
def Obligations.BusyReadOutsideWriteSet : Prop :=
  ∀ (s : State) (q : Running) (addr : BitVec 12) (rest : List Event), s.running = some q → 2 ≤ q.left →
    addr.toNat % 8 = 0 → s.inputs = .access (.read addr 8) :: rest →
    regAt s.params addr = .status ∨ regAt s.params addr = .ctrl ∨
      regAt s.params addr ∉ writeSet q.task.op (2 * s.rounds.toNat) →
    step s = .next ((clockEdge s).answered rest (.okRead (readReg (regAt s.params addr) s)) none)

/-- While busy after the sequencer's part of the edge, a legal write to CTRL or STATUS takes effect as when idle, and a legal write to any other offset is
answered OK, changes nothing but ERR, and records ERR_BUSY (`70_reset_and_hazards.md` R270).
That at an edge with both the sequencer comes before the access is the model's choice (log 17); `20_memory.md` R81
leaves the order open. -/
def Obligations.WritesWhileBusy : Prop :=
  ∀ (s : State) (addr : BitVec 12) (v : Word) (rest : List Event), (clockEdge s).running ≠ none →
    addr.toNat % 8 = 0 → s.inputs = .access (.write addr 8 v) :: rest →
    let u := clockEdge s
    step s =
      .next (if addr = 0x008 then
          { u with inputs := rest, response := some .okWrite, ieDone := v.getLsbD 0, ieErr := v.getLsbD 1 }
        else if addr = 0x010 then
          { u with
            inputs := rest, response := some .okWrite, done := u.done && !v.getLsbD 1
            err := if v.getLsbD 8 then .none else u.err }
        else u.answered rest .okWrite (some .busy))

/-- STATUS as read: BUSY, DONE and SCHED_VALID in bits 0 to 2, ERR in bits 7 to 4 with the numbers of `60_exceptions.md`
R231, every other bit 0; and a write to STATUS affects only DONE (bit 1) and ERR (bit 8), busy or not (`10_state.md`
R33).
Both are performed after the sequencer's part of the edge, so that at the edge that completes a command a read shows
BUSY 0 and a write of bit 1 clears the DONE just set: the model's choice (log 17), since `20_memory.md` R81 leaves the
order at such an edge open. -/
def Obligations.StatusReadAndWrite : Prop :=
  ∀ (s : State) (v : Word) (rest : List Event),
    let u := clockEdge s
    let code : Nat := match u.err with
      | .none => 0
      | .busy => 1
      | .opcode => 2
      | .reserved => 3
      | .rounds => 4
      | .keylen => 5
      | .kidx => 6
    (s.inputs = .access (.read 0x010 8) :: rest →
      ∃ x : Word, step s = .next (u.answered rest (.okRead x) none) ∧
        x.toNat = u.busy.toNat + 2 * u.done.toNat + 4 * u.schedValid.toNat + 16 * code) ∧
    (s.inputs = .access (.write 0x010 8 v) :: rest →
      step s = .next { u with
        inputs := rest, response := some .okWrite, done := u.done && !v.getLsbD 1
        err := if v.getLsbD 8 then .none else u.err })

/-- A W-bit register or RAM entry stores bits [W-1:0] of the written value and ignores the others; read back, bits
[63:W] are 0 (`10_state.md` R44): CAR, BLK[0..3], HA, HB, and every KEY and RK entry of the instance. -/
def Obligations.WriteThenReadDatapath : Prop :=
  ∀ (s : State) (addr : BitVec 12) (v : Word) (rest : List Event), s.running = none → addr.toNat % 8 = 0 →
    (addr = 0x050 ∨ 0x080 ≤ addr.toNat ∧ addr.toNat < 0x0C0 ∨
      0x400 ≤ addr.toNat ∧ addr.toNat < 0x400 + 8 * kmaxTable s.params.width ∨
      0x800 ≤ addr.toNat ∧ addr.toNat < 0x800 + 16 * s.params.rmax) →
    s.inputs = .access (.write addr 8 v) :: .access (.read addr 8) :: rest →
    ∃ t, steps 2 s = .next t ∧
      t.response = some (.okRead (BitVec.ofNat 64 (v.toNat % 2 ^ s.params.width.bits))) ∧
      ∀ r, r ≠ regAt s.params addr → r ≠ .status → readReg r t = readReg r s

/-- While idle, a write to CFG stores ROUNDS, one to KEYLEN stores KEYLEN, any 8-bit value, and both clear SCHED_VALID;
a write to CTRL stores IE_DONE and IE_ERR; a write to ID, RES, LASTRULE, KS_P or KS_Q is ignored without error; nothing
else changes (`10_state.md` R31, R32, R34, R35, R37 to R39). -/
def Obligations.ControlRegisterWrites : Prop :=
  ∀ (s : State) (v : Word) (rest : List Event), s.running = none →
    (s.inputs = .access (.write 0x018 8 v) :: rest →
      step s = .next { s with
        inputs := rest, response := some .okWrite, rounds := BitVec.ofNat 8 v.toNat, schedValid := false }) ∧
    (s.inputs = .access (.write 0x028 8 v) :: rest →
      step s = .next { s with
        inputs := rest, response := some .okWrite, keylen := BitVec.ofNat 8 v.toNat, schedValid := false }) ∧
    (s.inputs = .access (.write 0x008 8 v) :: rest →
      step s = .next { s with
        inputs := rest, response := some .okWrite, ieDone := v.getLsbD 0, ieErr := v.getLsbD 1 }) ∧
    ∀ addr : BitVec 12, addr = 0x000 ∨ addr = 0x030 ∨ addr = 0x038 ∨ addr = 0x040 ∨ addr = 0x048 →
      s.inputs = .access (.write addr 8 v) :: rest → step s = .next (s.answered rest .okWrite none)

/-- ID reads W, RMAX, KMAX, REV = 0x07 and MAGIC = 0x4D454341 in its fields (`10_state.md` R31).
That at an edge with both the sequencer comes before the access is the model's choice (log 17); `20_memory.md` R81
leaves the order open. -/
def Obligations.IdReportsParameters : Prop :=
  ∀ (s : State) (rest : List Event), s.inputs = .access (.read 0x000 8) :: rest →
    ∃ x : Word, step s = .next ((clockEdge s).answered rest (.okRead x) none) ∧
      x.toNat = s.params.width.bits + 2 ^ 8 * s.params.rmax + 2 ^ 16 * kmaxTable s.params.width + 2 ^ 24 * 0x07 +
        2 ^ 32 * 0x4D454341

/-- SCHED_VALID (`10_state.md` R48): a step sets it only by completing a KSRUN, a running one or one issued at command
level (log 7), and an accepted host write to CFG,
KEYLEN, an existing KEY entry or an existing RK entry leaves it 0. -/
def Obligations.SchedValidRule : Prop :=
  (∀ s t : State, step s = .next t → s.schedValid = false → t.schedValid = true →
    (∃ v rest, s.inputs = .command v :: rest ∧ decode v = .ok .ksrun ∧ t.done = true) ∨
      ∃ q, s.running = some q ∧ q.task.op = .ksrun ∧ (clockEdge s).busy = false ∧ (clockEdge s).done = true) ∧
  ∀ (s t : State) (addr : BitVec 12) (v : Word) (rest : List Event), s.running = none → addr.toNat % 8 = 0 →
    (addr = 0x018 ∨ addr = 0x028 ∨ 0x400 ≤ addr.toNat ∧ addr.toNat < 0x400 + 8 * kmaxTable s.params.width ∨
      0x800 ≤ addr.toNat ∧ addr.toNat < 0x800 + 16 * s.params.rmax) →
    s.inputs = .access (.write addr 8 v) :: rest → step s = .next t → t.schedValid = false

/-- The interrupt output is 1 exactly when a pending source is enabled (`60_exceptions.md` R240, R241): completion while
DONE = 1 and IE_DONE = 1, error while ERR ≠ 0 and IE_ERR = 1. -/
def Obligations.InterruptIsLevelOfPendingSources : Prop :=
  ∀ s : State, s.irq = true ↔ s.done = true ∧ s.ieDone = true ∨ s.err ≠ .none ∧ s.ieErr = true

/-! ## Reset -/

/-- A clock edge with `rst` asserted puts every register in its reset state, whatever the block was doing, drops the
command in flight and does not perform the access presented (`70_reset_and_hazards.md` R260, R261). The RAM contents
are drawn anew (the model's free value, log 3). -/
def Obligations.ResetEdgeRestoresResetState : Prop :=
  ∀ (s : State) (a : Option Access) (rest : List Event), s.inputs = .rst a :: rest →
    step s = .next
      { params := s.params, ieDone := false, ieErr := false, done := false, schedValid := false, err := .none
        rounds := 0, keylen := 0, res := 0, lastRule := 0, car := 0, blk0 := 0, blk1 := 0, blk2 := 0, blk3 := 0
        ha := ⟨0, 0⟩, hb := ⟨0, 0⟩, key := [], rk := [], running := none, inputs := rest, response := none
        ramEpoch := s.ramEpoch + 1, freeReads := s.freeReads }

/-- What reset leaves (`10_state.md` R56): every register but the constants reads 0, the sequencer is idle and irq is
0, for an instance of any parameters. -/
def Obligations.ResetRegisterValues : Prop :=
  ∀ (p : Params) (n : Nat) (r : Reg), (∀ j, r ≠ .key j) → (∀ j, r ≠ .rk j) → r ≠ .id → r ≠ .ksP → r ≠ .ksQ →
    readReg r (State.resetOf p n) = 0 ∧ (State.resetOf p n).running = none ∧ (State.resetOf p n).irq = false

/-! ## Invariant -/

/-- Every step keeps the invariant: W-bit values in every register and RAM entry (`10_state.md` R44), RAMs in canonical
form with existing entries only, and a running command that passed its checks, with its counters in range. -/
def Obligations.StepKeepsInvariant : Prop := ∀ s t : State, s.Inv → step s = .next t → t.Inv

/-- The reset state of every instance meets the invariant. -/
def Obligations.ResetMeetsInvariant : Prop := State.reset.Inv ∧ ∀ (p : Params) (n : Nat), (State.resetOf p n).Inv

/-! ## Progress -/

/-- Nothing the host does while a command runs can stall or abort it (`70_reset_and_hazards.md` R278): at an edge with
any event but reset, a command with cycles left goes on exactly as at an edge with none; only the interrupt enables,
DONE, ERR and the port's own fields may differ. An idle block is left alone by a bare edge.
That one step is one clock edge, the sequencer first at it, is the model's reading (logs 8, 17). -/
def Obligations.HostCannotStallTheSequencer : Prop :=
  (∀ s : State, s.running = none → clockEdge s = s) ∧
    ∀ (s : State) (q : Running) (e : Event) (rest : List Event), s.running = some q → 2 ≤ q.left →
      (∀ a, e ≠ .rst a) → s.inputs = e :: rest →
      (∃ p, (clockEdge s).running = some p ∧ p.task.op = q.task.op ∧ p.left + 1 = q.left) ∧
        ∃ t, step s = .next t ∧ t = { clockEdge s with
          inputs := rest, response := t.response, ieDone := t.ieDone, ieErr := t.ieErr, done := t.done, err := t.err
          freeReads := t.freeReads }
end

