-- ==== Sys2Proof/Laws/Cells.lean ====
section
/-! SUPPORT. The bits of the datapath functions: cells, truncation, the elementary automaton, and W-bit values. -/

namespace Sys2Proof.Machine

theorem Width.bits_le (width : Width) : width.bits ≤ 64 := by cases width <;> decide

theorem Width.bits_pos (width : Width) : 0 < width.bits := by cases width <;> decide

theorem kmax_eq (p : Params) : kmax p = kmaxTable p.width := by
  obtain ⟨w, r⟩ := p
  cases w <;> simp [kmax, kmaxTable, Width.bits]

theorem cellSum_lt (f : Nat → Bool) (n : Nat) : cellSum f n < 2 ^ n := by
  induction n with
  | zero => simp [cellSum]
  | succ n ih =>
    rw [cellSum, pow_succ]
    cases f n <;> simp <;> omega

theorem testBit_cellSum (f : Nat → Bool) (n c : Nat) : (cellSum f n).testBit c = (decide (c < n) && f c) := by
  induction n with
  | zero => simp [cellSum]
  | succ n ih =>
    have hlt := cellSum_lt f n
    rw [cellSum, show (f n).toNat * 2 ^ n = 2 ^ n * (f n).toNat from Nat.mul_comm _ _, Nat.add_comm,
      Nat.testBit_two_pow_mul_add _ hlt, ih]
    rcases lt_trichotomy c n with h | rfl | h
    · simp [h, Nat.lt_succ_of_lt h]
    · cases hf : f c <;> simp
    · have h1 : ¬ c < n := by omega
      have h2 : ¬ c < n + 1 := by omega
      simp only [h1, h2, if_false, decide_false, Bool.false_and]
      apply Nat.testBit_lt_two_pow
      calc (f n).toNat ≤ 1 := Bool.toNat_le _
        _ < 2 ^ (c - n) := Nat.one_lt_two_pow (by omega)

/-- Cell c of a value made from cells is the c-th of them, and the bits above are 0. -/
theorem getLsbD_ofCells {n : Nat} (hn : n ≤ 64) (f : Nat → Bool) (c : Nat) :
    (ofCells n f).getLsbD c = (decide (c < n) && f c) := by
  rw [ofCells, BitVec.getLsbD_ofNat, testBit_cellSum]
  by_cases h : c < n
  · simp [h, lt_of_lt_of_le h hn]
  · simp [h]

@[simp] theorem getLsbD_trunc (n : Nat) (v : Word) (c : Nat) :
    (trunc n v).getLsbD c = (decide (c < n) && v.getLsbD c) := by
  simp only [trunc, BitVec.getLsbD_setWidth]
  by_cases h : c < 64
  · simp [h]
  · simp [h, BitVec.getLsbD_of_ge v c (by omega)]

theorem toNat_trunc {n : Nat} (hn : n ≤ 64) (v : Word) : (trunc n v).toNat = v.toNat % 2 ^ n := by
  have h := Nat.pow_le_pow_right (n := 2) (by omega) hn
  have := Nat.mod_lt v.toNat (Nat.two_pow_pos n)
  rw [trunc, BitVec.toNat_setWidth, BitVec.toNat_setWidth, Nat.mod_eq_of_lt (by omega)]

/-- One generation, cell by cell (`41_elementary_ca.md` R140). -/
theorem getLsbD_ca {w : Nat} (hw : w ≤ 64) (x : Word) (rule : Rule) (bnd : Boundary) (c : Nat) :
    (ca w x rule bnd).getLsbD c =
      (decide (c < w) && ruleBit rule (index (leftCell w bnd x c) (x.getLsbD c) (rightCell w bnd x c))) :=
  getLsbD_ofCells hw _ c

/-! ## W-bit values -/

theorem fits_iff {w : Nat} {v : Word} : Fits w v ↔ ∀ c, w ≤ c → v.getLsbD c = false := by
  constructor
  · intro h c hc
    exact Nat.testBit_lt_two_pow (lt_of_lt_of_le h (Nat.pow_le_pow_right (by omega) hc))
  · intro h
    exact Nat.lt_pow_two_of_testBit _ h

theorem fits_zero (w : Nat) : Fits w 0 := Nat.two_pow_pos w

theorem fits_trunc (w : Nat) (v : Word) : Fits w (trunc w v) := by
  rw [fits_iff]
  intro c hc
  simp [Nat.not_lt.2 hc]

theorem fits_ca {w : Nat} (hw : w ≤ 64) (x : Word) (rule : Rule) (bnd : Boundary) : Fits w (ca w x rule bnd) := by
  rw [fits_iff]
  intro c hc
  simp [getLsbD_ca hw, Nat.not_lt.2 hc]

theorem Fits.xor {w : Nat} {x y : Word} (hx : Fits w x) (hy : Fits w y) : Fits w (x ^^^ y) := by
  rw [fits_iff] at *
  intro c hc
  simp [hx c hc, hy c hc]

/-- A small number is a W-bit value: RES holds a neighbourhood index, a bit or a rule number. -/
theorem fits_of_lt {w : Nat} (hw : 8 ≤ w) {v : Word} (h : v.toNat < 256) : Fits w v :=
  lt_of_lt_of_le h (Nat.pow_le_pow_right (n := 2) (by omega) hw)

end Sys2Proof.Machine
end

