-- ==== Sys2Proof/Laws/State.lean ====
section
/-! SUPPORT. One lemma per field per named update of State: what the update leaves and what it sets. -/

namespace Sys2Proof.Machine.State

/-! ### setHalf -/

@[simp] theorem setHalf_params (s : State) (h : Half) (g : HalfRegs) : (s.setHalf h g).params = s.params := by cases h <;> rfl
@[simp] theorem setHalf_ieDone (s : State) (h : Half) (g : HalfRegs) : (s.setHalf h g).ieDone = s.ieDone := by cases h <;> rfl
@[simp] theorem setHalf_ieErr (s : State) (h : Half) (g : HalfRegs) : (s.setHalf h g).ieErr = s.ieErr := by cases h <;> rfl
@[simp] theorem setHalf_done (s : State) (h : Half) (g : HalfRegs) : (s.setHalf h g).done = s.done := by cases h <;> rfl
@[simp] theorem setHalf_schedValid (s : State) (h : Half) (g : HalfRegs) : (s.setHalf h g).schedValid = s.schedValid := by cases h <;> rfl
@[simp] theorem setHalf_err (s : State) (h : Half) (g : HalfRegs) : (s.setHalf h g).err = s.err := by cases h <;> rfl
@[simp] theorem setHalf_rounds (s : State) (h : Half) (g : HalfRegs) : (s.setHalf h g).rounds = s.rounds := by cases h <;> rfl
@[simp] theorem setHalf_keylen (s : State) (h : Half) (g : HalfRegs) : (s.setHalf h g).keylen = s.keylen := by cases h <;> rfl
@[simp] theorem setHalf_res (s : State) (h : Half) (g : HalfRegs) : (s.setHalf h g).res = s.res := by cases h <;> rfl
@[simp] theorem setHalf_lastRule (s : State) (h : Half) (g : HalfRegs) : (s.setHalf h g).lastRule = s.lastRule := by cases h <;> rfl
@[simp] theorem setHalf_car (s : State) (h : Half) (g : HalfRegs) : (s.setHalf h g).car = s.car := by cases h <;> rfl
@[simp] theorem setHalf_blk0 (s : State) (h : Half) (g : HalfRegs) : (s.setHalf h g).blk0 = s.blk0 := by cases h <;> rfl
@[simp] theorem setHalf_blk1 (s : State) (h : Half) (g : HalfRegs) : (s.setHalf h g).blk1 = s.blk1 := by cases h <;> rfl
@[simp] theorem setHalf_blk2 (s : State) (h : Half) (g : HalfRegs) : (s.setHalf h g).blk2 = s.blk2 := by cases h <;> rfl
@[simp] theorem setHalf_blk3 (s : State) (h : Half) (g : HalfRegs) : (s.setHalf h g).blk3 = s.blk3 := by cases h <;> rfl
@[simp] theorem setHalf_key (s : State) (h : Half) (g : HalfRegs) : (s.setHalf h g).key = s.key := by cases h <;> rfl
@[simp] theorem setHalf_rk (s : State) (h : Half) (g : HalfRegs) : (s.setHalf h g).rk = s.rk := by cases h <;> rfl
@[simp] theorem setHalf_running (s : State) (h : Half) (g : HalfRegs) : (s.setHalf h g).running = s.running := by cases h <;> rfl
@[simp] theorem setHalf_inputs (s : State) (h : Half) (g : HalfRegs) : (s.setHalf h g).inputs = s.inputs := by cases h <;> rfl
@[simp] theorem setHalf_response (s : State) (h : Half) (g : HalfRegs) : (s.setHalf h g).response = s.response := by cases h <;> rfl
@[simp] theorem setHalf_ramEpoch (s : State) (h : Half) (g : HalfRegs) : (s.setHalf h g).ramEpoch = s.ramEpoch := by cases h <;> rfl
@[simp] theorem setHalf_freeReads (s : State) (h : Half) (g : HalfRegs) : (s.setHalf h g).freeReads = s.freeReads := by cases h <;> rfl
@[simp] theorem setHalf_w (s : State) (h : Half) (g : HalfRegs) : (s.setHalf h g).w = s.w := by cases h <;> rfl
@[simp] theorem setHalf_r (s : State) (h : Half) (g : HalfRegs) : (s.setHalf h g).r = s.r := by cases h <;> rfl
@[simp] theorem setHalf_k (s : State) (h : Half) (g : HalfRegs) : (s.setHalf h g).k = s.k := by cases h <;> rfl
@[simp] theorem setHalf_busy (s : State) (h : Half) (g : HalfRegs) : (s.setHalf h g).busy = s.busy := by cases h <;> rfl
@[simp] theorem setHalf_keyAt (s : State) (h : Half) (g : HalfRegs) (e : Nat) : (s.setHalf h g).keyAt e = s.keyAt e := by cases h <;> rfl
@[simp] theorem setHalf_rkAt (s : State) (h : Half) (g : HalfRegs) (e : Nat) : (s.setHalf h g).rkAt e = s.rkAt e := by cases h <;> rfl
@[simp] theorem setHalf_pair (s : State) (h : Half) (g : HalfRegs) (h' : Half) : (s.setHalf h g).pair h' = s.pair h' := by cases h' <;> cases h <;> rfl
@[simp] theorem setHalf_A_ha (s : State) (g : HalfRegs) : (s.setHalf .A g).ha = g := rfl
@[simp] theorem setHalf_A_hb (s : State) (g : HalfRegs) : (s.setHalf .A g).hb = s.hb := rfl
@[simp] theorem setHalf_B_ha (s : State) (g : HalfRegs) : (s.setHalf .B g).ha = s.ha := rfl
@[simp] theorem setHalf_B_hb (s : State) (g : HalfRegs) : (s.setHalf .B g).hb = g := rfl
@[simp] theorem setHalf_half (s : State) (h h' : Half) (g : HalfRegs) :
    (s.setHalf h g).half h' = if h' = h then g else s.half h' := by cases h <;> cases h' <;> rfl

/-! ### setPair -/

@[simp] theorem setPair_params (s : State) (h : Half) (x y : Word) : (s.setPair h x y).params = s.params := by cases h <;> rfl
@[simp] theorem setPair_ieDone (s : State) (h : Half) (x y : Word) : (s.setPair h x y).ieDone = s.ieDone := by cases h <;> rfl
@[simp] theorem setPair_ieErr (s : State) (h : Half) (x y : Word) : (s.setPair h x y).ieErr = s.ieErr := by cases h <;> rfl
@[simp] theorem setPair_done (s : State) (h : Half) (x y : Word) : (s.setPair h x y).done = s.done := by cases h <;> rfl
@[simp] theorem setPair_schedValid (s : State) (h : Half) (x y : Word) : (s.setPair h x y).schedValid = s.schedValid := by cases h <;> rfl
@[simp] theorem setPair_err (s : State) (h : Half) (x y : Word) : (s.setPair h x y).err = s.err := by cases h <;> rfl
@[simp] theorem setPair_rounds (s : State) (h : Half) (x y : Word) : (s.setPair h x y).rounds = s.rounds := by cases h <;> rfl
@[simp] theorem setPair_keylen (s : State) (h : Half) (x y : Word) : (s.setPair h x y).keylen = s.keylen := by cases h <;> rfl
@[simp] theorem setPair_res (s : State) (h : Half) (x y : Word) : (s.setPair h x y).res = s.res := by cases h <;> rfl
@[simp] theorem setPair_lastRule (s : State) (h : Half) (x y : Word) : (s.setPair h x y).lastRule = s.lastRule := by cases h <;> rfl
@[simp] theorem setPair_car (s : State) (h : Half) (x y : Word) : (s.setPair h x y).car = s.car := by cases h <;> rfl
@[simp] theorem setPair_ha (s : State) (h : Half) (x y : Word) : (s.setPair h x y).ha = s.ha := by cases h <;> rfl
@[simp] theorem setPair_hb (s : State) (h : Half) (x y : Word) : (s.setPair h x y).hb = s.hb := by cases h <;> rfl
@[simp] theorem setPair_key (s : State) (h : Half) (x y : Word) : (s.setPair h x y).key = s.key := by cases h <;> rfl
@[simp] theorem setPair_rk (s : State) (h : Half) (x y : Word) : (s.setPair h x y).rk = s.rk := by cases h <;> rfl
@[simp] theorem setPair_running (s : State) (h : Half) (x y : Word) : (s.setPair h x y).running = s.running := by cases h <;> rfl
@[simp] theorem setPair_inputs (s : State) (h : Half) (x y : Word) : (s.setPair h x y).inputs = s.inputs := by cases h <;> rfl
@[simp] theorem setPair_response (s : State) (h : Half) (x y : Word) : (s.setPair h x y).response = s.response := by cases h <;> rfl
@[simp] theorem setPair_ramEpoch (s : State) (h : Half) (x y : Word) : (s.setPair h x y).ramEpoch = s.ramEpoch := by cases h <;> rfl
@[simp] theorem setPair_freeReads (s : State) (h : Half) (x y : Word) : (s.setPair h x y).freeReads = s.freeReads := by cases h <;> rfl
@[simp] theorem setPair_w (s : State) (h : Half) (x y : Word) : (s.setPair h x y).w = s.w := by cases h <;> rfl
@[simp] theorem setPair_r (s : State) (h : Half) (x y : Word) : (s.setPair h x y).r = s.r := by cases h <;> rfl
@[simp] theorem setPair_k (s : State) (h : Half) (x y : Word) : (s.setPair h x y).k = s.k := by cases h <;> rfl
@[simp] theorem setPair_busy (s : State) (h : Half) (x y : Word) : (s.setPair h x y).busy = s.busy := by cases h <;> rfl
@[simp] theorem setPair_keyAt (s : State) (h : Half) (x y : Word) (e : Nat) : (s.setPair h x y).keyAt e = s.keyAt e := by cases h <;> rfl
@[simp] theorem setPair_rkAt (s : State) (h : Half) (x y : Word) (e : Nat) : (s.setPair h x y).rkAt e = s.rkAt e := by cases h <;> rfl
@[simp] theorem setPair_half (s : State) (h : Half) (x y : Word) (h' : Half) : (s.setPair h x y).half h' = s.half h' := by cases h' <;> cases h <;> rfl
@[simp] theorem setPair_A_blk0 (s : State) (x y : Word) : (s.setPair .A x y).blk0 = x := rfl
@[simp] theorem setPair_A_blk1 (s : State) (x y : Word) : (s.setPair .A x y).blk1 = y := rfl
@[simp] theorem setPair_A_blk2 (s : State) (x y : Word) : (s.setPair .A x y).blk2 = s.blk2 := rfl
@[simp] theorem setPair_A_blk3 (s : State) (x y : Word) : (s.setPair .A x y).blk3 = s.blk3 := rfl
@[simp] theorem setPair_B_blk0 (s : State) (x y : Word) : (s.setPair .B x y).blk0 = s.blk0 := rfl
@[simp] theorem setPair_B_blk1 (s : State) (x y : Word) : (s.setPair .B x y).blk1 = s.blk1 := rfl
@[simp] theorem setPair_B_blk2 (s : State) (x y : Word) : (s.setPair .B x y).blk2 = x := rfl
@[simp] theorem setPair_B_blk3 (s : State) (x y : Word) : (s.setPair .B x y).blk3 = y := rfl
@[simp] theorem setPair_pair (s : State) (h h' : Half) (x y : Word) :
    (s.setPair h x y).pair h' = if h' = h then (x, y) else s.pair h' := by cases h <;> cases h' <;> rfl

/-! ### setRes -/

@[simp] theorem setRes_params (s : State) (v : Word) : (s.setRes v).params = s.params := rfl
@[simp] theorem setRes_ieDone (s : State) (v : Word) : (s.setRes v).ieDone = s.ieDone := rfl
@[simp] theorem setRes_ieErr (s : State) (v : Word) : (s.setRes v).ieErr = s.ieErr := rfl
@[simp] theorem setRes_done (s : State) (v : Word) : (s.setRes v).done = s.done := rfl
@[simp] theorem setRes_schedValid (s : State) (v : Word) : (s.setRes v).schedValid = s.schedValid := rfl
@[simp] theorem setRes_err (s : State) (v : Word) : (s.setRes v).err = s.err := rfl
@[simp] theorem setRes_rounds (s : State) (v : Word) : (s.setRes v).rounds = s.rounds := rfl
@[simp] theorem setRes_keylen (s : State) (v : Word) : (s.setRes v).keylen = s.keylen := rfl
@[simp] theorem setRes_res (s : State) (v : Word) : (s.setRes v).res = v := rfl
@[simp] theorem setRes_lastRule (s : State) (v : Word) : (s.setRes v).lastRule = s.lastRule := rfl
@[simp] theorem setRes_car (s : State) (v : Word) : (s.setRes v).car = s.car := rfl
@[simp] theorem setRes_blk0 (s : State) (v : Word) : (s.setRes v).blk0 = s.blk0 := rfl
@[simp] theorem setRes_blk1 (s : State) (v : Word) : (s.setRes v).blk1 = s.blk1 := rfl
@[simp] theorem setRes_blk2 (s : State) (v : Word) : (s.setRes v).blk2 = s.blk2 := rfl
@[simp] theorem setRes_blk3 (s : State) (v : Word) : (s.setRes v).blk3 = s.blk3 := rfl
@[simp] theorem setRes_ha (s : State) (v : Word) : (s.setRes v).ha = s.ha := rfl
@[simp] theorem setRes_hb (s : State) (v : Word) : (s.setRes v).hb = s.hb := rfl
@[simp] theorem setRes_key (s : State) (v : Word) : (s.setRes v).key = s.key := rfl
@[simp] theorem setRes_rk (s : State) (v : Word) : (s.setRes v).rk = s.rk := rfl
@[simp] theorem setRes_running (s : State) (v : Word) : (s.setRes v).running = s.running := rfl
@[simp] theorem setRes_inputs (s : State) (v : Word) : (s.setRes v).inputs = s.inputs := rfl
@[simp] theorem setRes_response (s : State) (v : Word) : (s.setRes v).response = s.response := rfl
@[simp] theorem setRes_ramEpoch (s : State) (v : Word) : (s.setRes v).ramEpoch = s.ramEpoch := rfl
@[simp] theorem setRes_freeReads (s : State) (v : Word) : (s.setRes v).freeReads = s.freeReads := rfl
@[simp] theorem setRes_w (s : State) (v : Word) : (s.setRes v).w = s.w := rfl
@[simp] theorem setRes_r (s : State) (v : Word) : (s.setRes v).r = s.r := rfl
@[simp] theorem setRes_k (s : State) (v : Word) : (s.setRes v).k = s.k := rfl
@[simp] theorem setRes_busy (s : State) (v : Word) : (s.setRes v).busy = s.busy := rfl
@[simp] theorem setRes_keyAt (s : State) (v : Word) (e : Nat) : (s.setRes v).keyAt e = s.keyAt e := rfl
@[simp] theorem setRes_rkAt (s : State) (v : Word) (e : Nat) : (s.setRes v).rkAt e = s.rkAt e := rfl
@[simp] theorem setRes_half (s : State) (v : Word) (h' : Half) : (s.setRes v).half h' = s.half h' := by cases h' <;> rfl
@[simp] theorem setRes_pair (s : State) (v : Word) (h' : Half) : (s.setRes v).pair h' = s.pair h' := by cases h' <;> rfl

/-! ### setLastRule -/

@[simp] theorem setLastRule_params (s : State) (rule : Rule) : (s.setLastRule rule).params = s.params := rfl
@[simp] theorem setLastRule_ieDone (s : State) (rule : Rule) : (s.setLastRule rule).ieDone = s.ieDone := rfl
@[simp] theorem setLastRule_ieErr (s : State) (rule : Rule) : (s.setLastRule rule).ieErr = s.ieErr := rfl
@[simp] theorem setLastRule_done (s : State) (rule : Rule) : (s.setLastRule rule).done = s.done := rfl
@[simp] theorem setLastRule_schedValid (s : State) (rule : Rule) : (s.setLastRule rule).schedValid = s.schedValid := rfl
@[simp] theorem setLastRule_err (s : State) (rule : Rule) : (s.setLastRule rule).err = s.err := rfl
@[simp] theorem setLastRule_rounds (s : State) (rule : Rule) : (s.setLastRule rule).rounds = s.rounds := rfl
@[simp] theorem setLastRule_keylen (s : State) (rule : Rule) : (s.setLastRule rule).keylen = s.keylen := rfl
@[simp] theorem setLastRule_res (s : State) (rule : Rule) : (s.setLastRule rule).res = s.res := rfl
@[simp] theorem setLastRule_lastRule (s : State) (rule : Rule) : (s.setLastRule rule).lastRule = rule := rfl
@[simp] theorem setLastRule_car (s : State) (rule : Rule) : (s.setLastRule rule).car = s.car := rfl
@[simp] theorem setLastRule_blk0 (s : State) (rule : Rule) : (s.setLastRule rule).blk0 = s.blk0 := rfl
@[simp] theorem setLastRule_blk1 (s : State) (rule : Rule) : (s.setLastRule rule).blk1 = s.blk1 := rfl
@[simp] theorem setLastRule_blk2 (s : State) (rule : Rule) : (s.setLastRule rule).blk2 = s.blk2 := rfl
@[simp] theorem setLastRule_blk3 (s : State) (rule : Rule) : (s.setLastRule rule).blk3 = s.blk3 := rfl
@[simp] theorem setLastRule_ha (s : State) (rule : Rule) : (s.setLastRule rule).ha = s.ha := rfl
@[simp] theorem setLastRule_hb (s : State) (rule : Rule) : (s.setLastRule rule).hb = s.hb := rfl
@[simp] theorem setLastRule_key (s : State) (rule : Rule) : (s.setLastRule rule).key = s.key := rfl
@[simp] theorem setLastRule_rk (s : State) (rule : Rule) : (s.setLastRule rule).rk = s.rk := rfl
@[simp] theorem setLastRule_running (s : State) (rule : Rule) : (s.setLastRule rule).running = s.running := rfl
@[simp] theorem setLastRule_inputs (s : State) (rule : Rule) : (s.setLastRule rule).inputs = s.inputs := rfl
@[simp] theorem setLastRule_response (s : State) (rule : Rule) : (s.setLastRule rule).response = s.response := rfl
@[simp] theorem setLastRule_ramEpoch (s : State) (rule : Rule) : (s.setLastRule rule).ramEpoch = s.ramEpoch := rfl
@[simp] theorem setLastRule_freeReads (s : State) (rule : Rule) : (s.setLastRule rule).freeReads = s.freeReads := rfl
@[simp] theorem setLastRule_w (s : State) (rule : Rule) : (s.setLastRule rule).w = s.w := rfl
@[simp] theorem setLastRule_r (s : State) (rule : Rule) : (s.setLastRule rule).r = s.r := rfl
@[simp] theorem setLastRule_k (s : State) (rule : Rule) : (s.setLastRule rule).k = s.k := rfl
@[simp] theorem setLastRule_busy (s : State) (rule : Rule) : (s.setLastRule rule).busy = s.busy := rfl
@[simp] theorem setLastRule_keyAt (s : State) (rule : Rule) (e : Nat) : (s.setLastRule rule).keyAt e = s.keyAt e := rfl
@[simp] theorem setLastRule_rkAt (s : State) (rule : Rule) (e : Nat) : (s.setLastRule rule).rkAt e = s.rkAt e := rfl
@[simp] theorem setLastRule_half (s : State) (rule : Rule) (h' : Half) : (s.setLastRule rule).half h' = s.half h' := by cases h' <;> rfl
@[simp] theorem setLastRule_pair (s : State) (rule : Rule) (h' : Half) : (s.setLastRule rule).pair h' = s.pair h' := by cases h' <;> rfl

/-! ### setCar -/

@[simp] theorem setCar_params (s : State) (v : Word) : (s.setCar v).params = s.params := rfl
@[simp] theorem setCar_ieDone (s : State) (v : Word) : (s.setCar v).ieDone = s.ieDone := rfl
@[simp] theorem setCar_ieErr (s : State) (v : Word) : (s.setCar v).ieErr = s.ieErr := rfl
@[simp] theorem setCar_done (s : State) (v : Word) : (s.setCar v).done = s.done := rfl
@[simp] theorem setCar_schedValid (s : State) (v : Word) : (s.setCar v).schedValid = s.schedValid := rfl
@[simp] theorem setCar_err (s : State) (v : Word) : (s.setCar v).err = s.err := rfl
@[simp] theorem setCar_rounds (s : State) (v : Word) : (s.setCar v).rounds = s.rounds := rfl
@[simp] theorem setCar_keylen (s : State) (v : Word) : (s.setCar v).keylen = s.keylen := rfl
@[simp] theorem setCar_res (s : State) (v : Word) : (s.setCar v).res = s.res := rfl
@[simp] theorem setCar_lastRule (s : State) (v : Word) : (s.setCar v).lastRule = s.lastRule := rfl
@[simp] theorem setCar_car (s : State) (v : Word) : (s.setCar v).car = v := rfl
@[simp] theorem setCar_blk0 (s : State) (v : Word) : (s.setCar v).blk0 = s.blk0 := rfl
@[simp] theorem setCar_blk1 (s : State) (v : Word) : (s.setCar v).blk1 = s.blk1 := rfl
@[simp] theorem setCar_blk2 (s : State) (v : Word) : (s.setCar v).blk2 = s.blk2 := rfl
@[simp] theorem setCar_blk3 (s : State) (v : Word) : (s.setCar v).blk3 = s.blk3 := rfl
@[simp] theorem setCar_ha (s : State) (v : Word) : (s.setCar v).ha = s.ha := rfl
@[simp] theorem setCar_hb (s : State) (v : Word) : (s.setCar v).hb = s.hb := rfl
@[simp] theorem setCar_key (s : State) (v : Word) : (s.setCar v).key = s.key := rfl
@[simp] theorem setCar_rk (s : State) (v : Word) : (s.setCar v).rk = s.rk := rfl
@[simp] theorem setCar_running (s : State) (v : Word) : (s.setCar v).running = s.running := rfl
@[simp] theorem setCar_inputs (s : State) (v : Word) : (s.setCar v).inputs = s.inputs := rfl
@[simp] theorem setCar_response (s : State) (v : Word) : (s.setCar v).response = s.response := rfl
@[simp] theorem setCar_ramEpoch (s : State) (v : Word) : (s.setCar v).ramEpoch = s.ramEpoch := rfl
@[simp] theorem setCar_freeReads (s : State) (v : Word) : (s.setCar v).freeReads = s.freeReads := rfl
@[simp] theorem setCar_w (s : State) (v : Word) : (s.setCar v).w = s.w := rfl
@[simp] theorem setCar_r (s : State) (v : Word) : (s.setCar v).r = s.r := rfl
@[simp] theorem setCar_k (s : State) (v : Word) : (s.setCar v).k = s.k := rfl
@[simp] theorem setCar_busy (s : State) (v : Word) : (s.setCar v).busy = s.busy := rfl
@[simp] theorem setCar_keyAt (s : State) (v : Word) (e : Nat) : (s.setCar v).keyAt e = s.keyAt e := rfl
@[simp] theorem setCar_rkAt (s : State) (v : Word) (e : Nat) : (s.setCar v).rkAt e = s.rkAt e := rfl
@[simp] theorem setCar_half (s : State) (v : Word) (h' : Half) : (s.setCar v).half h' = s.half h' := by cases h' <;> rfl
@[simp] theorem setCar_pair (s : State) (v : Word) (h' : Half) : (s.setCar v).pair h' = s.pair h' := by cases h' <;> rfl

/-! ### setKey -/

@[simp] theorem setKey_params (s : State) (m : Memory) : (s.setKey m).params = s.params := rfl
@[simp] theorem setKey_ieDone (s : State) (m : Memory) : (s.setKey m).ieDone = s.ieDone := rfl
@[simp] theorem setKey_ieErr (s : State) (m : Memory) : (s.setKey m).ieErr = s.ieErr := rfl
@[simp] theorem setKey_done (s : State) (m : Memory) : (s.setKey m).done = s.done := rfl
@[simp] theorem setKey_schedValid (s : State) (m : Memory) : (s.setKey m).schedValid = s.schedValid := rfl
@[simp] theorem setKey_err (s : State) (m : Memory) : (s.setKey m).err = s.err := rfl
@[simp] theorem setKey_rounds (s : State) (m : Memory) : (s.setKey m).rounds = s.rounds := rfl
@[simp] theorem setKey_keylen (s : State) (m : Memory) : (s.setKey m).keylen = s.keylen := rfl
@[simp] theorem setKey_res (s : State) (m : Memory) : (s.setKey m).res = s.res := rfl
@[simp] theorem setKey_lastRule (s : State) (m : Memory) : (s.setKey m).lastRule = s.lastRule := rfl
@[simp] theorem setKey_car (s : State) (m : Memory) : (s.setKey m).car = s.car := rfl
@[simp] theorem setKey_blk0 (s : State) (m : Memory) : (s.setKey m).blk0 = s.blk0 := rfl
@[simp] theorem setKey_blk1 (s : State) (m : Memory) : (s.setKey m).blk1 = s.blk1 := rfl
@[simp] theorem setKey_blk2 (s : State) (m : Memory) : (s.setKey m).blk2 = s.blk2 := rfl
@[simp] theorem setKey_blk3 (s : State) (m : Memory) : (s.setKey m).blk3 = s.blk3 := rfl
@[simp] theorem setKey_ha (s : State) (m : Memory) : (s.setKey m).ha = s.ha := rfl
@[simp] theorem setKey_hb (s : State) (m : Memory) : (s.setKey m).hb = s.hb := rfl
@[simp] theorem setKey_key (s : State) (m : Memory) : (s.setKey m).key = m := rfl
@[simp] theorem setKey_rk (s : State) (m : Memory) : (s.setKey m).rk = s.rk := rfl
@[simp] theorem setKey_running (s : State) (m : Memory) : (s.setKey m).running = s.running := rfl
@[simp] theorem setKey_inputs (s : State) (m : Memory) : (s.setKey m).inputs = s.inputs := rfl
@[simp] theorem setKey_response (s : State) (m : Memory) : (s.setKey m).response = s.response := rfl
@[simp] theorem setKey_ramEpoch (s : State) (m : Memory) : (s.setKey m).ramEpoch = s.ramEpoch := rfl
@[simp] theorem setKey_freeReads (s : State) (m : Memory) : (s.setKey m).freeReads = s.freeReads := rfl
@[simp] theorem setKey_w (s : State) (m : Memory) : (s.setKey m).w = s.w := rfl
@[simp] theorem setKey_r (s : State) (m : Memory) : (s.setKey m).r = s.r := rfl
@[simp] theorem setKey_k (s : State) (m : Memory) : (s.setKey m).k = s.k := rfl
@[simp] theorem setKey_busy (s : State) (m : Memory) : (s.setKey m).busy = s.busy := rfl
@[simp] theorem setKey_rkAt (s : State) (m : Memory) (e : Nat) : (s.setKey m).rkAt e = s.rkAt e := rfl
@[simp] theorem setKey_half (s : State) (m : Memory) (h' : Half) : (s.setKey m).half h' = s.half h' := by cases h' <;> rfl
@[simp] theorem setKey_pair (s : State) (m : Memory) (h' : Half) : (s.setKey m).pair h' = s.pair h' := by cases h' <;> rfl

/-! ### setRk -/

@[simp] theorem setRk_params (s : State) (m : Memory) : (s.setRk m).params = s.params := rfl
@[simp] theorem setRk_ieDone (s : State) (m : Memory) : (s.setRk m).ieDone = s.ieDone := rfl
@[simp] theorem setRk_ieErr (s : State) (m : Memory) : (s.setRk m).ieErr = s.ieErr := rfl
@[simp] theorem setRk_done (s : State) (m : Memory) : (s.setRk m).done = s.done := rfl
@[simp] theorem setRk_schedValid (s : State) (m : Memory) : (s.setRk m).schedValid = s.schedValid := rfl
@[simp] theorem setRk_err (s : State) (m : Memory) : (s.setRk m).err = s.err := rfl
@[simp] theorem setRk_rounds (s : State) (m : Memory) : (s.setRk m).rounds = s.rounds := rfl
@[simp] theorem setRk_keylen (s : State) (m : Memory) : (s.setRk m).keylen = s.keylen := rfl
@[simp] theorem setRk_res (s : State) (m : Memory) : (s.setRk m).res = s.res := rfl
@[simp] theorem setRk_lastRule (s : State) (m : Memory) : (s.setRk m).lastRule = s.lastRule := rfl
@[simp] theorem setRk_car (s : State) (m : Memory) : (s.setRk m).car = s.car := rfl
@[simp] theorem setRk_blk0 (s : State) (m : Memory) : (s.setRk m).blk0 = s.blk0 := rfl
@[simp] theorem setRk_blk1 (s : State) (m : Memory) : (s.setRk m).blk1 = s.blk1 := rfl
@[simp] theorem setRk_blk2 (s : State) (m : Memory) : (s.setRk m).blk2 = s.blk2 := rfl
@[simp] theorem setRk_blk3 (s : State) (m : Memory) : (s.setRk m).blk3 = s.blk3 := rfl
@[simp] theorem setRk_ha (s : State) (m : Memory) : (s.setRk m).ha = s.ha := rfl
@[simp] theorem setRk_hb (s : State) (m : Memory) : (s.setRk m).hb = s.hb := rfl
@[simp] theorem setRk_key (s : State) (m : Memory) : (s.setRk m).key = s.key := rfl
@[simp] theorem setRk_rk (s : State) (m : Memory) : (s.setRk m).rk = m := rfl
@[simp] theorem setRk_running (s : State) (m : Memory) : (s.setRk m).running = s.running := rfl
@[simp] theorem setRk_inputs (s : State) (m : Memory) : (s.setRk m).inputs = s.inputs := rfl
@[simp] theorem setRk_response (s : State) (m : Memory) : (s.setRk m).response = s.response := rfl
@[simp] theorem setRk_ramEpoch (s : State) (m : Memory) : (s.setRk m).ramEpoch = s.ramEpoch := rfl
@[simp] theorem setRk_freeReads (s : State) (m : Memory) : (s.setRk m).freeReads = s.freeReads := rfl
@[simp] theorem setRk_w (s : State) (m : Memory) : (s.setRk m).w = s.w := rfl
@[simp] theorem setRk_r (s : State) (m : Memory) : (s.setRk m).r = s.r := rfl
@[simp] theorem setRk_k (s : State) (m : Memory) : (s.setRk m).k = s.k := rfl
@[simp] theorem setRk_busy (s : State) (m : Memory) : (s.setRk m).busy = s.busy := rfl
@[simp] theorem setRk_keyAt (s : State) (m : Memory) (e : Nat) : (s.setRk m).keyAt e = s.keyAt e := rfl
@[simp] theorem setRk_half (s : State) (m : Memory) (h' : Half) : (s.setRk m).half h' = s.half h' := by cases h' <;> rfl
@[simp] theorem setRk_pair (s : State) (m : Memory) (h' : Half) : (s.setRk m).pair h' = s.pair h' := by cases h' <;> rfl

/-! ### setSchedValid -/

@[simp] theorem setSchedValid_params (s : State) (b : Bool) : (s.setSchedValid b).params = s.params := rfl
@[simp] theorem setSchedValid_ieDone (s : State) (b : Bool) : (s.setSchedValid b).ieDone = s.ieDone := rfl
@[simp] theorem setSchedValid_ieErr (s : State) (b : Bool) : (s.setSchedValid b).ieErr = s.ieErr := rfl
@[simp] theorem setSchedValid_done (s : State) (b : Bool) : (s.setSchedValid b).done = s.done := rfl
@[simp] theorem setSchedValid_schedValid (s : State) (b : Bool) : (s.setSchedValid b).schedValid = b := rfl
@[simp] theorem setSchedValid_err (s : State) (b : Bool) : (s.setSchedValid b).err = s.err := rfl
@[simp] theorem setSchedValid_rounds (s : State) (b : Bool) : (s.setSchedValid b).rounds = s.rounds := rfl
@[simp] theorem setSchedValid_keylen (s : State) (b : Bool) : (s.setSchedValid b).keylen = s.keylen := rfl
@[simp] theorem setSchedValid_res (s : State) (b : Bool) : (s.setSchedValid b).res = s.res := rfl
@[simp] theorem setSchedValid_lastRule (s : State) (b : Bool) : (s.setSchedValid b).lastRule = s.lastRule := rfl
@[simp] theorem setSchedValid_car (s : State) (b : Bool) : (s.setSchedValid b).car = s.car := rfl
@[simp] theorem setSchedValid_blk0 (s : State) (b : Bool) : (s.setSchedValid b).blk0 = s.blk0 := rfl
@[simp] theorem setSchedValid_blk1 (s : State) (b : Bool) : (s.setSchedValid b).blk1 = s.blk1 := rfl
@[simp] theorem setSchedValid_blk2 (s : State) (b : Bool) : (s.setSchedValid b).blk2 = s.blk2 := rfl
@[simp] theorem setSchedValid_blk3 (s : State) (b : Bool) : (s.setSchedValid b).blk3 = s.blk3 := rfl
@[simp] theorem setSchedValid_ha (s : State) (b : Bool) : (s.setSchedValid b).ha = s.ha := rfl
@[simp] theorem setSchedValid_hb (s : State) (b : Bool) : (s.setSchedValid b).hb = s.hb := rfl
@[simp] theorem setSchedValid_key (s : State) (b : Bool) : (s.setSchedValid b).key = s.key := rfl
@[simp] theorem setSchedValid_rk (s : State) (b : Bool) : (s.setSchedValid b).rk = s.rk := rfl
@[simp] theorem setSchedValid_running (s : State) (b : Bool) : (s.setSchedValid b).running = s.running := rfl
@[simp] theorem setSchedValid_inputs (s : State) (b : Bool) : (s.setSchedValid b).inputs = s.inputs := rfl
@[simp] theorem setSchedValid_response (s : State) (b : Bool) : (s.setSchedValid b).response = s.response := rfl
@[simp] theorem setSchedValid_ramEpoch (s : State) (b : Bool) : (s.setSchedValid b).ramEpoch = s.ramEpoch := rfl
@[simp] theorem setSchedValid_freeReads (s : State) (b : Bool) : (s.setSchedValid b).freeReads = s.freeReads := rfl
@[simp] theorem setSchedValid_w (s : State) (b : Bool) : (s.setSchedValid b).w = s.w := rfl
@[simp] theorem setSchedValid_r (s : State) (b : Bool) : (s.setSchedValid b).r = s.r := rfl
@[simp] theorem setSchedValid_k (s : State) (b : Bool) : (s.setSchedValid b).k = s.k := rfl
@[simp] theorem setSchedValid_busy (s : State) (b : Bool) : (s.setSchedValid b).busy = s.busy := rfl
@[simp] theorem setSchedValid_keyAt (s : State) (b : Bool) (e : Nat) : (s.setSchedValid b).keyAt e = s.keyAt e := rfl
@[simp] theorem setSchedValid_rkAt (s : State) (b : Bool) (e : Nat) : (s.setSchedValid b).rkAt e = s.rkAt e := rfl
@[simp] theorem setSchedValid_half (s : State) (b : Bool) (h' : Half) : (s.setSchedValid b).half h' = s.half h' := by cases h' <;> rfl
@[simp] theorem setSchedValid_pair (s : State) (b : Bool) (h' : Half) : (s.setSchedValid b).pair h' = s.pair h' := by cases h' <;> rfl

/-! ### respond -/

@[simp] theorem respond_params (s : State) (a : Response) : (s.respond a).params = s.params := rfl
@[simp] theorem respond_ieDone (s : State) (a : Response) : (s.respond a).ieDone = s.ieDone := rfl
@[simp] theorem respond_ieErr (s : State) (a : Response) : (s.respond a).ieErr = s.ieErr := rfl
@[simp] theorem respond_done (s : State) (a : Response) : (s.respond a).done = s.done := rfl
@[simp] theorem respond_schedValid (s : State) (a : Response) : (s.respond a).schedValid = s.schedValid := rfl
@[simp] theorem respond_err (s : State) (a : Response) : (s.respond a).err = s.err := rfl
@[simp] theorem respond_rounds (s : State) (a : Response) : (s.respond a).rounds = s.rounds := rfl
@[simp] theorem respond_keylen (s : State) (a : Response) : (s.respond a).keylen = s.keylen := rfl
@[simp] theorem respond_res (s : State) (a : Response) : (s.respond a).res = s.res := rfl
@[simp] theorem respond_lastRule (s : State) (a : Response) : (s.respond a).lastRule = s.lastRule := rfl
@[simp] theorem respond_car (s : State) (a : Response) : (s.respond a).car = s.car := rfl
@[simp] theorem respond_blk0 (s : State) (a : Response) : (s.respond a).blk0 = s.blk0 := rfl
@[simp] theorem respond_blk1 (s : State) (a : Response) : (s.respond a).blk1 = s.blk1 := rfl
@[simp] theorem respond_blk2 (s : State) (a : Response) : (s.respond a).blk2 = s.blk2 := rfl
@[simp] theorem respond_blk3 (s : State) (a : Response) : (s.respond a).blk3 = s.blk3 := rfl
@[simp] theorem respond_ha (s : State) (a : Response) : (s.respond a).ha = s.ha := rfl
@[simp] theorem respond_hb (s : State) (a : Response) : (s.respond a).hb = s.hb := rfl
@[simp] theorem respond_key (s : State) (a : Response) : (s.respond a).key = s.key := rfl
@[simp] theorem respond_rk (s : State) (a : Response) : (s.respond a).rk = s.rk := rfl
@[simp] theorem respond_running (s : State) (a : Response) : (s.respond a).running = s.running := rfl
@[simp] theorem respond_inputs (s : State) (a : Response) : (s.respond a).inputs = s.inputs := rfl
@[simp] theorem respond_response (s : State) (a : Response) : (s.respond a).response = some a := rfl
@[simp] theorem respond_ramEpoch (s : State) (a : Response) : (s.respond a).ramEpoch = s.ramEpoch := rfl
@[simp] theorem respond_freeReads (s : State) (a : Response) : (s.respond a).freeReads = s.freeReads := rfl
@[simp] theorem respond_w (s : State) (a : Response) : (s.respond a).w = s.w := rfl
@[simp] theorem respond_r (s : State) (a : Response) : (s.respond a).r = s.r := rfl
@[simp] theorem respond_k (s : State) (a : Response) : (s.respond a).k = s.k := rfl
@[simp] theorem respond_busy (s : State) (a : Response) : (s.respond a).busy = s.busy := rfl
@[simp] theorem respond_keyAt (s : State) (a : Response) (e : Nat) : (s.respond a).keyAt e = s.keyAt e := rfl
@[simp] theorem respond_rkAt (s : State) (a : Response) (e : Nat) : (s.respond a).rkAt e = s.rkAt e := rfl
@[simp] theorem respond_half (s : State) (a : Response) (h' : Half) : (s.respond a).half h' = s.half h' := by cases h' <;> rfl
@[simp] theorem respond_pair (s : State) (a : Response) (h' : Half) : (s.respond a).pair h' = s.pair h' := by cases h' <;> rfl

/-! ### recordErr -/

@[simp] theorem recordErr_params (s : State) (code : ErrCode) : (s.recordErr code).params = s.params := rfl
@[simp] theorem recordErr_ieDone (s : State) (code : ErrCode) : (s.recordErr code).ieDone = s.ieDone := rfl
@[simp] theorem recordErr_ieErr (s : State) (code : ErrCode) : (s.recordErr code).ieErr = s.ieErr := rfl
@[simp] theorem recordErr_done (s : State) (code : ErrCode) : (s.recordErr code).done = s.done := rfl
@[simp] theorem recordErr_schedValid (s : State) (code : ErrCode) : (s.recordErr code).schedValid = s.schedValid := rfl
@[simp] theorem recordErr_err (s : State) (code : ErrCode) : (s.recordErr code).err = if s.err = .none then code else s.err := rfl
@[simp] theorem recordErr_rounds (s : State) (code : ErrCode) : (s.recordErr code).rounds = s.rounds := rfl
@[simp] theorem recordErr_keylen (s : State) (code : ErrCode) : (s.recordErr code).keylen = s.keylen := rfl
@[simp] theorem recordErr_res (s : State) (code : ErrCode) : (s.recordErr code).res = s.res := rfl
@[simp] theorem recordErr_lastRule (s : State) (code : ErrCode) : (s.recordErr code).lastRule = s.lastRule := rfl
@[simp] theorem recordErr_car (s : State) (code : ErrCode) : (s.recordErr code).car = s.car := rfl
@[simp] theorem recordErr_blk0 (s : State) (code : ErrCode) : (s.recordErr code).blk0 = s.blk0 := rfl
@[simp] theorem recordErr_blk1 (s : State) (code : ErrCode) : (s.recordErr code).blk1 = s.blk1 := rfl
@[simp] theorem recordErr_blk2 (s : State) (code : ErrCode) : (s.recordErr code).blk2 = s.blk2 := rfl
@[simp] theorem recordErr_blk3 (s : State) (code : ErrCode) : (s.recordErr code).blk3 = s.blk3 := rfl
@[simp] theorem recordErr_ha (s : State) (code : ErrCode) : (s.recordErr code).ha = s.ha := rfl
@[simp] theorem recordErr_hb (s : State) (code : ErrCode) : (s.recordErr code).hb = s.hb := rfl
@[simp] theorem recordErr_key (s : State) (code : ErrCode) : (s.recordErr code).key = s.key := rfl
@[simp] theorem recordErr_rk (s : State) (code : ErrCode) : (s.recordErr code).rk = s.rk := rfl
@[simp] theorem recordErr_running (s : State) (code : ErrCode) : (s.recordErr code).running = s.running := rfl
@[simp] theorem recordErr_inputs (s : State) (code : ErrCode) : (s.recordErr code).inputs = s.inputs := rfl
@[simp] theorem recordErr_response (s : State) (code : ErrCode) : (s.recordErr code).response = s.response := rfl
@[simp] theorem recordErr_ramEpoch (s : State) (code : ErrCode) : (s.recordErr code).ramEpoch = s.ramEpoch := rfl
@[simp] theorem recordErr_freeReads (s : State) (code : ErrCode) : (s.recordErr code).freeReads = s.freeReads := rfl
@[simp] theorem recordErr_w (s : State) (code : ErrCode) : (s.recordErr code).w = s.w := rfl
@[simp] theorem recordErr_r (s : State) (code : ErrCode) : (s.recordErr code).r = s.r := rfl
@[simp] theorem recordErr_k (s : State) (code : ErrCode) : (s.recordErr code).k = s.k := rfl
@[simp] theorem recordErr_busy (s : State) (code : ErrCode) : (s.recordErr code).busy = s.busy := rfl
@[simp] theorem recordErr_keyAt (s : State) (code : ErrCode) (e : Nat) : (s.recordErr code).keyAt e = s.keyAt e := rfl
@[simp] theorem recordErr_rkAt (s : State) (code : ErrCode) (e : Nat) : (s.recordErr code).rkAt e = s.rkAt e := rfl
@[simp] theorem recordErr_half (s : State) (code : ErrCode) (h' : Half) : (s.recordErr code).half h' = s.half h' := by cases h' <;> rfl
@[simp] theorem recordErr_pair (s : State) (code : ErrCode) (h' : Half) : (s.recordErr code).pair h' = s.pair h' := by cases h' <;> rfl

/-! ### setDone -/

@[simp] theorem setDone_params (s : State) (b : Bool) : (s.setDone b).params = s.params := rfl
@[simp] theorem setDone_ieDone (s : State) (b : Bool) : (s.setDone b).ieDone = s.ieDone := rfl
@[simp] theorem setDone_ieErr (s : State) (b : Bool) : (s.setDone b).ieErr = s.ieErr := rfl
@[simp] theorem setDone_done (s : State) (b : Bool) : (s.setDone b).done = b := rfl
@[simp] theorem setDone_schedValid (s : State) (b : Bool) : (s.setDone b).schedValid = s.schedValid := rfl
@[simp] theorem setDone_err (s : State) (b : Bool) : (s.setDone b).err = s.err := rfl
@[simp] theorem setDone_rounds (s : State) (b : Bool) : (s.setDone b).rounds = s.rounds := rfl
@[simp] theorem setDone_keylen (s : State) (b : Bool) : (s.setDone b).keylen = s.keylen := rfl
@[simp] theorem setDone_res (s : State) (b : Bool) : (s.setDone b).res = s.res := rfl
@[simp] theorem setDone_lastRule (s : State) (b : Bool) : (s.setDone b).lastRule = s.lastRule := rfl
@[simp] theorem setDone_car (s : State) (b : Bool) : (s.setDone b).car = s.car := rfl
@[simp] theorem setDone_blk0 (s : State) (b : Bool) : (s.setDone b).blk0 = s.blk0 := rfl
@[simp] theorem setDone_blk1 (s : State) (b : Bool) : (s.setDone b).blk1 = s.blk1 := rfl
@[simp] theorem setDone_blk2 (s : State) (b : Bool) : (s.setDone b).blk2 = s.blk2 := rfl
@[simp] theorem setDone_blk3 (s : State) (b : Bool) : (s.setDone b).blk3 = s.blk3 := rfl
@[simp] theorem setDone_ha (s : State) (b : Bool) : (s.setDone b).ha = s.ha := rfl
@[simp] theorem setDone_hb (s : State) (b : Bool) : (s.setDone b).hb = s.hb := rfl
@[simp] theorem setDone_key (s : State) (b : Bool) : (s.setDone b).key = s.key := rfl
@[simp] theorem setDone_rk (s : State) (b : Bool) : (s.setDone b).rk = s.rk := rfl
@[simp] theorem setDone_running (s : State) (b : Bool) : (s.setDone b).running = s.running := rfl
@[simp] theorem setDone_inputs (s : State) (b : Bool) : (s.setDone b).inputs = s.inputs := rfl
@[simp] theorem setDone_response (s : State) (b : Bool) : (s.setDone b).response = s.response := rfl
@[simp] theorem setDone_ramEpoch (s : State) (b : Bool) : (s.setDone b).ramEpoch = s.ramEpoch := rfl
@[simp] theorem setDone_freeReads (s : State) (b : Bool) : (s.setDone b).freeReads = s.freeReads := rfl
@[simp] theorem setDone_w (s : State) (b : Bool) : (s.setDone b).w = s.w := rfl
@[simp] theorem setDone_r (s : State) (b : Bool) : (s.setDone b).r = s.r := rfl
@[simp] theorem setDone_k (s : State) (b : Bool) : (s.setDone b).k = s.k := rfl
@[simp] theorem setDone_busy (s : State) (b : Bool) : (s.setDone b).busy = s.busy := rfl
@[simp] theorem setDone_keyAt (s : State) (b : Bool) (e : Nat) : (s.setDone b).keyAt e = s.keyAt e := rfl
@[simp] theorem setDone_rkAt (s : State) (b : Bool) (e : Nat) : (s.setDone b).rkAt e = s.rkAt e := rfl
@[simp] theorem setDone_half (s : State) (b : Bool) (h' : Half) : (s.setDone b).half h' = s.half h' := by cases h' <;> rfl
@[simp] theorem setDone_pair (s : State) (b : Bool) (h' : Half) : (s.setDone b).pair h' = s.pair h' := by cases h' <;> rfl

/-! ### setRunning -/

@[simp] theorem setRunning_params (s : State) (q : Option Running) : (s.setRunning q).params = s.params := rfl
@[simp] theorem setRunning_ieDone (s : State) (q : Option Running) : (s.setRunning q).ieDone = s.ieDone := rfl
@[simp] theorem setRunning_ieErr (s : State) (q : Option Running) : (s.setRunning q).ieErr = s.ieErr := rfl
@[simp] theorem setRunning_done (s : State) (q : Option Running) : (s.setRunning q).done = s.done := rfl
@[simp] theorem setRunning_schedValid (s : State) (q : Option Running) : (s.setRunning q).schedValid = s.schedValid := rfl
@[simp] theorem setRunning_err (s : State) (q : Option Running) : (s.setRunning q).err = s.err := rfl
@[simp] theorem setRunning_rounds (s : State) (q : Option Running) : (s.setRunning q).rounds = s.rounds := rfl
@[simp] theorem setRunning_keylen (s : State) (q : Option Running) : (s.setRunning q).keylen = s.keylen := rfl
@[simp] theorem setRunning_res (s : State) (q : Option Running) : (s.setRunning q).res = s.res := rfl
@[simp] theorem setRunning_lastRule (s : State) (q : Option Running) : (s.setRunning q).lastRule = s.lastRule := rfl
@[simp] theorem setRunning_car (s : State) (q : Option Running) : (s.setRunning q).car = s.car := rfl
@[simp] theorem setRunning_blk0 (s : State) (q : Option Running) : (s.setRunning q).blk0 = s.blk0 := rfl
@[simp] theorem setRunning_blk1 (s : State) (q : Option Running) : (s.setRunning q).blk1 = s.blk1 := rfl
@[simp] theorem setRunning_blk2 (s : State) (q : Option Running) : (s.setRunning q).blk2 = s.blk2 := rfl
@[simp] theorem setRunning_blk3 (s : State) (q : Option Running) : (s.setRunning q).blk3 = s.blk3 := rfl
@[simp] theorem setRunning_ha (s : State) (q : Option Running) : (s.setRunning q).ha = s.ha := rfl
@[simp] theorem setRunning_hb (s : State) (q : Option Running) : (s.setRunning q).hb = s.hb := rfl
@[simp] theorem setRunning_key (s : State) (q : Option Running) : (s.setRunning q).key = s.key := rfl
@[simp] theorem setRunning_rk (s : State) (q : Option Running) : (s.setRunning q).rk = s.rk := rfl
@[simp] theorem setRunning_running (s : State) (q : Option Running) : (s.setRunning q).running = q := rfl
@[simp] theorem setRunning_inputs (s : State) (q : Option Running) : (s.setRunning q).inputs = s.inputs := rfl
@[simp] theorem setRunning_response (s : State) (q : Option Running) : (s.setRunning q).response = s.response := rfl
@[simp] theorem setRunning_ramEpoch (s : State) (q : Option Running) : (s.setRunning q).ramEpoch = s.ramEpoch := rfl
@[simp] theorem setRunning_freeReads (s : State) (q : Option Running) : (s.setRunning q).freeReads = s.freeReads := rfl
@[simp] theorem setRunning_w (s : State) (q : Option Running) : (s.setRunning q).w = s.w := rfl
@[simp] theorem setRunning_r (s : State) (q : Option Running) : (s.setRunning q).r = s.r := rfl
@[simp] theorem setRunning_k (s : State) (q : Option Running) : (s.setRunning q).k = s.k := rfl
@[simp] theorem setRunning_keyAt (s : State) (q : Option Running) (e : Nat) : (s.setRunning q).keyAt e = s.keyAt e := rfl
@[simp] theorem setRunning_rkAt (s : State) (q : Option Running) (e : Nat) : (s.setRunning q).rkAt e = s.rkAt e := rfl
@[simp] theorem setRunning_half (s : State) (q : Option Running) (h' : Half) : (s.setRunning q).half h' = s.half h' := by cases h' <;> rfl
@[simp] theorem setRunning_pair (s : State) (q : Option Running) (h' : Half) : (s.setRunning q).pair h' = s.pair h' := by cases h' <;> rfl
@[simp] theorem setRunning_busy (s : State) (q : Option Running) : (s.setRunning q).busy = q.isSome := rfl

/-! ### complete -/

@[simp] theorem complete_params (s : State) : (s.complete).params = s.params := rfl
@[simp] theorem complete_ieDone (s : State) : (s.complete).ieDone = s.ieDone := rfl
@[simp] theorem complete_ieErr (s : State) : (s.complete).ieErr = s.ieErr := rfl
@[simp] theorem complete_done (s : State) : (s.complete).done = true := rfl
@[simp] theorem complete_schedValid (s : State) : (s.complete).schedValid = s.schedValid := rfl
@[simp] theorem complete_err (s : State) : (s.complete).err = s.err := rfl
@[simp] theorem complete_rounds (s : State) : (s.complete).rounds = s.rounds := rfl
@[simp] theorem complete_keylen (s : State) : (s.complete).keylen = s.keylen := rfl
@[simp] theorem complete_res (s : State) : (s.complete).res = s.res := rfl
@[simp] theorem complete_lastRule (s : State) : (s.complete).lastRule = s.lastRule := rfl
@[simp] theorem complete_car (s : State) : (s.complete).car = s.car := rfl
@[simp] theorem complete_blk0 (s : State) : (s.complete).blk0 = s.blk0 := rfl
@[simp] theorem complete_blk1 (s : State) : (s.complete).blk1 = s.blk1 := rfl
@[simp] theorem complete_blk2 (s : State) : (s.complete).blk2 = s.blk2 := rfl
@[simp] theorem complete_blk3 (s : State) : (s.complete).blk3 = s.blk3 := rfl
@[simp] theorem complete_ha (s : State) : (s.complete).ha = s.ha := rfl
@[simp] theorem complete_hb (s : State) : (s.complete).hb = s.hb := rfl
@[simp] theorem complete_key (s : State) : (s.complete).key = s.key := rfl
@[simp] theorem complete_rk (s : State) : (s.complete).rk = s.rk := rfl
@[simp] theorem complete_running (s : State) : (s.complete).running = none := rfl
@[simp] theorem complete_inputs (s : State) : (s.complete).inputs = s.inputs := rfl
@[simp] theorem complete_response (s : State) : (s.complete).response = s.response := rfl
@[simp] theorem complete_ramEpoch (s : State) : (s.complete).ramEpoch = s.ramEpoch := rfl
@[simp] theorem complete_freeReads (s : State) : (s.complete).freeReads = s.freeReads := rfl
@[simp] theorem complete_w (s : State) : (s.complete).w = s.w := rfl
@[simp] theorem complete_r (s : State) : (s.complete).r = s.r := rfl
@[simp] theorem complete_k (s : State) : (s.complete).k = s.k := rfl
@[simp] theorem complete_keyAt (s : State) (e : Nat) : (s.complete).keyAt e = s.keyAt e := rfl
@[simp] theorem complete_rkAt (s : State) (e : Nat) : (s.complete).rkAt e = s.rkAt e := rfl
@[simp] theorem complete_half (s : State) (h' : Half) : (s.complete).half h' = s.half h' := by cases h' <;> rfl
@[simp] theorem complete_pair (s : State) (h' : Half) : (s.complete).pair h' = s.pair h' := by cases h' <;> rfl
@[simp] theorem complete_busy (s : State) : s.complete.busy = false := rfl

/-! ### writeCtrl -/

@[simp] theorem writeCtrl_params (s : State) (v : Word) : (s.writeCtrl v).params = s.params := rfl
@[simp] theorem writeCtrl_ieDone (s : State) (v : Word) : (s.writeCtrl v).ieDone = v.getLsbD 0 := rfl
@[simp] theorem writeCtrl_ieErr (s : State) (v : Word) : (s.writeCtrl v).ieErr = v.getLsbD 1 := rfl
@[simp] theorem writeCtrl_done (s : State) (v : Word) : (s.writeCtrl v).done = s.done := rfl
@[simp] theorem writeCtrl_schedValid (s : State) (v : Word) : (s.writeCtrl v).schedValid = s.schedValid := rfl
@[simp] theorem writeCtrl_err (s : State) (v : Word) : (s.writeCtrl v).err = s.err := rfl
@[simp] theorem writeCtrl_rounds (s : State) (v : Word) : (s.writeCtrl v).rounds = s.rounds := rfl
@[simp] theorem writeCtrl_keylen (s : State) (v : Word) : (s.writeCtrl v).keylen = s.keylen := rfl
@[simp] theorem writeCtrl_res (s : State) (v : Word) : (s.writeCtrl v).res = s.res := rfl
@[simp] theorem writeCtrl_lastRule (s : State) (v : Word) : (s.writeCtrl v).lastRule = s.lastRule := rfl
@[simp] theorem writeCtrl_car (s : State) (v : Word) : (s.writeCtrl v).car = s.car := rfl
@[simp] theorem writeCtrl_blk0 (s : State) (v : Word) : (s.writeCtrl v).blk0 = s.blk0 := rfl
@[simp] theorem writeCtrl_blk1 (s : State) (v : Word) : (s.writeCtrl v).blk1 = s.blk1 := rfl
@[simp] theorem writeCtrl_blk2 (s : State) (v : Word) : (s.writeCtrl v).blk2 = s.blk2 := rfl
@[simp] theorem writeCtrl_blk3 (s : State) (v : Word) : (s.writeCtrl v).blk3 = s.blk3 := rfl
@[simp] theorem writeCtrl_ha (s : State) (v : Word) : (s.writeCtrl v).ha = s.ha := rfl
@[simp] theorem writeCtrl_hb (s : State) (v : Word) : (s.writeCtrl v).hb = s.hb := rfl
@[simp] theorem writeCtrl_key (s : State) (v : Word) : (s.writeCtrl v).key = s.key := rfl
@[simp] theorem writeCtrl_rk (s : State) (v : Word) : (s.writeCtrl v).rk = s.rk := rfl
@[simp] theorem writeCtrl_running (s : State) (v : Word) : (s.writeCtrl v).running = s.running := rfl
@[simp] theorem writeCtrl_inputs (s : State) (v : Word) : (s.writeCtrl v).inputs = s.inputs := rfl
@[simp] theorem writeCtrl_response (s : State) (v : Word) : (s.writeCtrl v).response = s.response := rfl
@[simp] theorem writeCtrl_ramEpoch (s : State) (v : Word) : (s.writeCtrl v).ramEpoch = s.ramEpoch := rfl
@[simp] theorem writeCtrl_freeReads (s : State) (v : Word) : (s.writeCtrl v).freeReads = s.freeReads := rfl
@[simp] theorem writeCtrl_w (s : State) (v : Word) : (s.writeCtrl v).w = s.w := rfl
@[simp] theorem writeCtrl_r (s : State) (v : Word) : (s.writeCtrl v).r = s.r := rfl
@[simp] theorem writeCtrl_k (s : State) (v : Word) : (s.writeCtrl v).k = s.k := rfl
@[simp] theorem writeCtrl_busy (s : State) (v : Word) : (s.writeCtrl v).busy = s.busy := rfl
@[simp] theorem writeCtrl_keyAt (s : State) (v : Word) (e : Nat) : (s.writeCtrl v).keyAt e = s.keyAt e := rfl
@[simp] theorem writeCtrl_rkAt (s : State) (v : Word) (e : Nat) : (s.writeCtrl v).rkAt e = s.rkAt e := rfl
@[simp] theorem writeCtrl_half (s : State) (v : Word) (h' : Half) : (s.writeCtrl v).half h' = s.half h' := by cases h' <;> rfl
@[simp] theorem writeCtrl_pair (s : State) (v : Word) (h' : Half) : (s.writeCtrl v).pair h' = s.pair h' := by cases h' <;> rfl

/-! ### writeStatus -/

@[simp] theorem writeStatus_params (s : State) (v : Word) : (s.writeStatus v).params = s.params := rfl
@[simp] theorem writeStatus_ieDone (s : State) (v : Word) : (s.writeStatus v).ieDone = s.ieDone := rfl
@[simp] theorem writeStatus_ieErr (s : State) (v : Word) : (s.writeStatus v).ieErr = s.ieErr := rfl
@[simp] theorem writeStatus_done (s : State) (v : Word) : (s.writeStatus v).done = if v.getLsbD 1 then false else s.done := rfl
@[simp] theorem writeStatus_schedValid (s : State) (v : Word) : (s.writeStatus v).schedValid = s.schedValid := rfl
@[simp] theorem writeStatus_err (s : State) (v : Word) : (s.writeStatus v).err = if v.getLsbD 8 then .none else s.err := rfl
@[simp] theorem writeStatus_rounds (s : State) (v : Word) : (s.writeStatus v).rounds = s.rounds := rfl
@[simp] theorem writeStatus_keylen (s : State) (v : Word) : (s.writeStatus v).keylen = s.keylen := rfl
@[simp] theorem writeStatus_res (s : State) (v : Word) : (s.writeStatus v).res = s.res := rfl
@[simp] theorem writeStatus_lastRule (s : State) (v : Word) : (s.writeStatus v).lastRule = s.lastRule := rfl
@[simp] theorem writeStatus_car (s : State) (v : Word) : (s.writeStatus v).car = s.car := rfl
@[simp] theorem writeStatus_blk0 (s : State) (v : Word) : (s.writeStatus v).blk0 = s.blk0 := rfl
@[simp] theorem writeStatus_blk1 (s : State) (v : Word) : (s.writeStatus v).blk1 = s.blk1 := rfl
@[simp] theorem writeStatus_blk2 (s : State) (v : Word) : (s.writeStatus v).blk2 = s.blk2 := rfl
@[simp] theorem writeStatus_blk3 (s : State) (v : Word) : (s.writeStatus v).blk3 = s.blk3 := rfl
@[simp] theorem writeStatus_ha (s : State) (v : Word) : (s.writeStatus v).ha = s.ha := rfl
@[simp] theorem writeStatus_hb (s : State) (v : Word) : (s.writeStatus v).hb = s.hb := rfl
@[simp] theorem writeStatus_key (s : State) (v : Word) : (s.writeStatus v).key = s.key := rfl
@[simp] theorem writeStatus_rk (s : State) (v : Word) : (s.writeStatus v).rk = s.rk := rfl
@[simp] theorem writeStatus_running (s : State) (v : Word) : (s.writeStatus v).running = s.running := rfl
@[simp] theorem writeStatus_inputs (s : State) (v : Word) : (s.writeStatus v).inputs = s.inputs := rfl
@[simp] theorem writeStatus_response (s : State) (v : Word) : (s.writeStatus v).response = s.response := rfl
@[simp] theorem writeStatus_ramEpoch (s : State) (v : Word) : (s.writeStatus v).ramEpoch = s.ramEpoch := rfl
@[simp] theorem writeStatus_freeReads (s : State) (v : Word) : (s.writeStatus v).freeReads = s.freeReads := rfl
@[simp] theorem writeStatus_w (s : State) (v : Word) : (s.writeStatus v).w = s.w := rfl
@[simp] theorem writeStatus_r (s : State) (v : Word) : (s.writeStatus v).r = s.r := rfl
@[simp] theorem writeStatus_k (s : State) (v : Word) : (s.writeStatus v).k = s.k := rfl
@[simp] theorem writeStatus_busy (s : State) (v : Word) : (s.writeStatus v).busy = s.busy := rfl
@[simp] theorem writeStatus_keyAt (s : State) (v : Word) (e : Nat) : (s.writeStatus v).keyAt e = s.keyAt e := rfl
@[simp] theorem writeStatus_rkAt (s : State) (v : Word) (e : Nat) : (s.writeStatus v).rkAt e = s.rkAt e := rfl
@[simp] theorem writeStatus_half (s : State) (v : Word) (h' : Half) : (s.writeStatus v).half h' = s.half h' := by cases h' <;> rfl
@[simp] theorem writeStatus_pair (s : State) (v : Word) (h' : Half) : (s.writeStatus v).pair h' = s.pair h' := by cases h' <;> rfl

/-! ### afterInput -/

@[simp] theorem afterInput_params (s : State) (rest : List Event) : (s.afterInput rest).params = s.params := rfl
@[simp] theorem afterInput_ieDone (s : State) (rest : List Event) : (s.afterInput rest).ieDone = s.ieDone := rfl
@[simp] theorem afterInput_ieErr (s : State) (rest : List Event) : (s.afterInput rest).ieErr = s.ieErr := rfl
@[simp] theorem afterInput_done (s : State) (rest : List Event) : (s.afterInput rest).done = s.done := rfl
@[simp] theorem afterInput_schedValid (s : State) (rest : List Event) : (s.afterInput rest).schedValid = s.schedValid := rfl
@[simp] theorem afterInput_err (s : State) (rest : List Event) : (s.afterInput rest).err = s.err := rfl
@[simp] theorem afterInput_rounds (s : State) (rest : List Event) : (s.afterInput rest).rounds = s.rounds := rfl
@[simp] theorem afterInput_keylen (s : State) (rest : List Event) : (s.afterInput rest).keylen = s.keylen := rfl
@[simp] theorem afterInput_res (s : State) (rest : List Event) : (s.afterInput rest).res = s.res := rfl
@[simp] theorem afterInput_lastRule (s : State) (rest : List Event) : (s.afterInput rest).lastRule = s.lastRule := rfl
@[simp] theorem afterInput_car (s : State) (rest : List Event) : (s.afterInput rest).car = s.car := rfl
@[simp] theorem afterInput_blk0 (s : State) (rest : List Event) : (s.afterInput rest).blk0 = s.blk0 := rfl
@[simp] theorem afterInput_blk1 (s : State) (rest : List Event) : (s.afterInput rest).blk1 = s.blk1 := rfl
@[simp] theorem afterInput_blk2 (s : State) (rest : List Event) : (s.afterInput rest).blk2 = s.blk2 := rfl
@[simp] theorem afterInput_blk3 (s : State) (rest : List Event) : (s.afterInput rest).blk3 = s.blk3 := rfl
@[simp] theorem afterInput_ha (s : State) (rest : List Event) : (s.afterInput rest).ha = s.ha := rfl
@[simp] theorem afterInput_hb (s : State) (rest : List Event) : (s.afterInput rest).hb = s.hb := rfl
@[simp] theorem afterInput_key (s : State) (rest : List Event) : (s.afterInput rest).key = s.key := rfl
@[simp] theorem afterInput_rk (s : State) (rest : List Event) : (s.afterInput rest).rk = s.rk := rfl
@[simp] theorem afterInput_running (s : State) (rest : List Event) : (s.afterInput rest).running = s.running := rfl
@[simp] theorem afterInput_inputs (s : State) (rest : List Event) : (s.afterInput rest).inputs = rest := rfl
@[simp] theorem afterInput_response (s : State) (rest : List Event) : (s.afterInput rest).response = none := rfl
@[simp] theorem afterInput_ramEpoch (s : State) (rest : List Event) : (s.afterInput rest).ramEpoch = s.ramEpoch := rfl
@[simp] theorem afterInput_freeReads (s : State) (rest : List Event) : (s.afterInput rest).freeReads = s.freeReads := rfl
@[simp] theorem afterInput_w (s : State) (rest : List Event) : (s.afterInput rest).w = s.w := rfl
@[simp] theorem afterInput_r (s : State) (rest : List Event) : (s.afterInput rest).r = s.r := rfl
@[simp] theorem afterInput_k (s : State) (rest : List Event) : (s.afterInput rest).k = s.k := rfl
@[simp] theorem afterInput_busy (s : State) (rest : List Event) : (s.afterInput rest).busy = s.busy := rfl
@[simp] theorem afterInput_keyAt (s : State) (rest : List Event) (e : Nat) : (s.afterInput rest).keyAt e = s.keyAt e := rfl
@[simp] theorem afterInput_rkAt (s : State) (rest : List Event) (e : Nat) : (s.afterInput rest).rkAt e = s.rkAt e := rfl
@[simp] theorem afterInput_half (s : State) (rest : List Event) (h' : Half) : (s.afterInput rest).half h' = s.half h' := by cases h' <;> rfl
@[simp] theorem afterInput_pair (s : State) (rest : List Event) (h' : Half) : (s.afterInput rest).pair h' = s.pair h' := by cases h' <;> rfl

/-! ### pushCommand -/

@[simp] theorem pushCommand_params (s : State) (v : Word) : (s.pushCommand v).params = s.params := rfl
@[simp] theorem pushCommand_ieDone (s : State) (v : Word) : (s.pushCommand v).ieDone = s.ieDone := rfl
@[simp] theorem pushCommand_ieErr (s : State) (v : Word) : (s.pushCommand v).ieErr = s.ieErr := rfl
@[simp] theorem pushCommand_done (s : State) (v : Word) : (s.pushCommand v).done = s.done := rfl
@[simp] theorem pushCommand_schedValid (s : State) (v : Word) : (s.pushCommand v).schedValid = s.schedValid := rfl
@[simp] theorem pushCommand_err (s : State) (v : Word) : (s.pushCommand v).err = s.err := rfl
@[simp] theorem pushCommand_rounds (s : State) (v : Word) : (s.pushCommand v).rounds = s.rounds := rfl
@[simp] theorem pushCommand_keylen (s : State) (v : Word) : (s.pushCommand v).keylen = s.keylen := rfl
@[simp] theorem pushCommand_res (s : State) (v : Word) : (s.pushCommand v).res = s.res := rfl
@[simp] theorem pushCommand_lastRule (s : State) (v : Word) : (s.pushCommand v).lastRule = s.lastRule := rfl
@[simp] theorem pushCommand_car (s : State) (v : Word) : (s.pushCommand v).car = s.car := rfl
@[simp] theorem pushCommand_blk0 (s : State) (v : Word) : (s.pushCommand v).blk0 = s.blk0 := rfl
@[simp] theorem pushCommand_blk1 (s : State) (v : Word) : (s.pushCommand v).blk1 = s.blk1 := rfl
@[simp] theorem pushCommand_blk2 (s : State) (v : Word) : (s.pushCommand v).blk2 = s.blk2 := rfl
@[simp] theorem pushCommand_blk3 (s : State) (v : Word) : (s.pushCommand v).blk3 = s.blk3 := rfl
@[simp] theorem pushCommand_ha (s : State) (v : Word) : (s.pushCommand v).ha = s.ha := rfl
@[simp] theorem pushCommand_hb (s : State) (v : Word) : (s.pushCommand v).hb = s.hb := rfl
@[simp] theorem pushCommand_key (s : State) (v : Word) : (s.pushCommand v).key = s.key := rfl
@[simp] theorem pushCommand_rk (s : State) (v : Word) : (s.pushCommand v).rk = s.rk := rfl
@[simp] theorem pushCommand_running (s : State) (v : Word) : (s.pushCommand v).running = s.running := rfl
@[simp] theorem pushCommand_inputs (s : State) (v : Word) : (s.pushCommand v).inputs = .command v :: s.inputs := rfl
@[simp] theorem pushCommand_response (s : State) (v : Word) : (s.pushCommand v).response = s.response := rfl
@[simp] theorem pushCommand_ramEpoch (s : State) (v : Word) : (s.pushCommand v).ramEpoch = s.ramEpoch := rfl
@[simp] theorem pushCommand_freeReads (s : State) (v : Word) : (s.pushCommand v).freeReads = s.freeReads := rfl
@[simp] theorem pushCommand_w (s : State) (v : Word) : (s.pushCommand v).w = s.w := rfl
@[simp] theorem pushCommand_r (s : State) (v : Word) : (s.pushCommand v).r = s.r := rfl
@[simp] theorem pushCommand_k (s : State) (v : Word) : (s.pushCommand v).k = s.k := rfl
@[simp] theorem pushCommand_busy (s : State) (v : Word) : (s.pushCommand v).busy = s.busy := rfl
@[simp] theorem pushCommand_keyAt (s : State) (v : Word) (e : Nat) : (s.pushCommand v).keyAt e = s.keyAt e := rfl
@[simp] theorem pushCommand_rkAt (s : State) (v : Word) (e : Nat) : (s.pushCommand v).rkAt e = s.rkAt e := rfl
@[simp] theorem pushCommand_half (s : State) (v : Word) (h' : Half) : (s.pushCommand v).half h' = s.half h' := by cases h' <;> rfl
@[simp] theorem pushCommand_pair (s : State) (v : Word) (h' : Half) : (s.pushCommand v).pair h' = s.pair h' := by cases h' <;> rfl

@[simp] theorem half_A (s : State) : s.half .A = s.ha := rfl
@[simp] theorem half_B (s : State) : s.half .B = s.hb := rfl
@[simp] theorem pair_A (s : State) : s.pair .A = (s.blk0, s.blk1) := rfl
@[simp] theorem pair_B (s : State) : s.pair .B = (s.blk2, s.blk3) := rfl

end Sys2Proof.Machine.State
end

