-- ==== Sys2Proof/Laws/Issue.lean ====
section
/-! SUPPORT. What the shared operations of the issue protocol and of taking an input can do, said once. -/

namespace Sys2Proof.Machine

theorem busy_iff (s : State) : s.busy = true ↔ s.running ≠ none := by
  simp [State.busy, Option.isSome_iff_ne_none]

theorem busy_false_iff (s : State) : s.busy = false ↔ s.running = none := by
  simp [State.busy]

/-- Dropped while a command runs. -/
theorem issue_of_busy (bad : Option ErrCode) (effect : State → State) {s : State} (h : s.running ≠ none) :
    issue bad effect s = .next (s.recordErr .busy) := by
  simp [issue, (busy_iff s).2 h]

/-- Refused by a check. -/
theorem issue_of_refused (effect : State → State) {s : State} (h : s.running = none) (code : ErrCode) :
    issue (some code) effect s = .next (s.recordErr code) := by
  simp [issue, (busy_false_iff s).2 h]

/-- Accepted, carried out, completed. -/
theorem issue_of_accepted (effect : State → State) {s : State} (h : s.running = none) :
    issue none effect s = .next (effect s).complete := by
  simp [issue, (busy_false_iff s).2 h]

/-- The three things a command-level transition can do. -/
theorem issue_cases {bad : Option ErrCode} {effect : State → State} {s t : State} (h : issue bad effect s = .next t) :
    (s.running ≠ none ∧ t = s.recordErr .busy) ∨
      (∃ code, s.running = none ∧ bad = some code ∧ t = s.recordErr code) ∨
      (s.running = none ∧ bad = none ∧ t = (effect s).complete) := by
  by_cases hr : s.running = none
  · cases bad with
    | some code => rw [issue_of_refused effect hr code] at h; exact .inr (.inl ⟨code, hr, rfl, by injection h with h; exact h.symm⟩)
    | none => rw [issue_of_accepted effect hr] at h; exact .inr (.inr ⟨hr, rfl, by injection h with h; exact h.symm⟩)
  · rw [issue_of_busy bad effect hr] at h
    exact .inl ⟨hr, by injection h with h; exact h.symm⟩

theorem issue_answers (bad : Option ErrCode) (effect : State → State) (s : State) :
    ∃ t, issue bad effect s = .next t := by
  by_cases hr : s.running = none
  · cases bad with
    | some code => exact ⟨_, issue_of_refused effect hr code⟩
    | none => exact ⟨_, issue_of_accepted effect hr⟩
  · exact ⟨_, issue_of_busy bad effect hr⟩

/-- Every command's meaning is a command-level transition under the command's checks. -/
theorem exec_is_issue (i : Instr) : ∃ effect : State → State, ∀ s, exec i s = issue (check i s) effect s := by
  cases i <;> exact ⟨_, fun _ => rfl⟩

/-- A step with an input is that event on the state with the input taken. -/
theorem step_of_input {s : State} {e : Event} {rest : List Event} (h : s.inputs = e :: rest) :
    step s = stepEvent e (s.afterInput rest) := by
  rw [step, h]

/-- A step with no input is a clock edge. -/
theorem step_of_no_input {s : State} (h : s.inputs = []) : step s = .next (clockEdge (s.afterInput [])) := by
  rw [step, h]
  rfl

end Sys2Proof.Machine
end

