-- ==== Sys2Proof/Laws/Memory.lean ====
section
/-! SUPPORT. The laws of the RAM operations: a read after a write, and the canonical form is kept. -/

namespace Sys2Proof.Machine

/-- A read after a write gives the value written at that index, and every other entry as before. -/
theorem Memory.find_insert (m : Memory) (a b : Nat) (v : Word) :
    (m.insert a v).find b = if b = a then some v else m.find b := by
  induction m with
  | nil => simp [Memory.insert, Memory.find]
  | cons e m ih =>
    obtain ⟨c, u⟩ := e
    rw [Memory.insert]
    by_cases h1 : a < c
    · simp [h1, Memory.find]
    by_cases h2 : a = c
    · subst h2
      by_cases hb : b = a <;> simp [Memory.find, hb]
    · rw [if_neg h1, if_neg h2, Memory.find, Memory.find, ih]
      by_cases hb : b = c
      · have hba : ¬ b = a := fun h => h2 (h ▸ hb)
        rw [if_pos hb, if_neg hba, if_pos hb]
      · simp [hb]

/-- The entries after a write are the written one and old ones. -/
theorem Memory.mem_insert {m : Memory} {a : Nat} {v : Word} {e : Nat × Word} (h : e ∈ m.insert a v) :
    e = (a, v) ∨ e ∈ m := by
  induction m with
  | nil => simpa [Memory.insert] using h
  | cons c m ih =>
    simp only [Memory.insert] at h
    split_ifs at h with h1 h2
    · simpa using h
    · rcases List.mem_cons.1 h with h | h
      · exact .inl h
      · exact .inr (List.mem_cons_of_mem _ h)
    · rcases List.mem_cons.1 h with h | h
      · exact .inr (h ▸ List.mem_cons_self)
      · exact (ih h).imp_right (List.mem_cons_of_mem _)

theorem Memory.wf_iff (m : Memory) : m.wf = true ↔ (m.map Prod.fst).Pairwise (· < ·) := by
  simp [Memory.wf]

@[simp] theorem Memory.wf_nil : Memory.wf [] = true := rfl

/-- A write keeps the canonical form. -/
theorem Memory.wf_insert {m : Memory} (a : Nat) (v : Word) (h : m.wf = true) : (m.insert a v).wf = true := by
  rw [Memory.wf_iff] at *
  induction m with
  | nil => simp [Memory.insert]
  | cons e m ih =>
    obtain ⟨c, u⟩ := e
    rw [List.map_cons, List.pairwise_cons] at h
    simp only [Memory.insert]
    split_ifs with h1 h2
    · simp only [List.map_cons, List.pairwise_cons]
      refine ⟨fun x hx => ?_, h.1, h.2⟩
      rcases List.mem_cons.1 hx with rfl | hx
      · exact h1
      · exact lt_trans h1 (h.1 x hx)
    · subst h2
      simpa using h
    · rw [List.map_cons, List.pairwise_cons]
      refine ⟨fun x hx => ?_, ih h.2⟩
      obtain ⟨e, he, rfl⟩ := List.mem_map.1 hx
      rcases Memory.mem_insert he with rfl | he
      · show c < a
        omega
      · exact h.1 _ (List.mem_map_of_mem he)

/-- A read after writing a list from index `a` on. -/
theorem Memory.find_insertFrom (vs : List Word) (a : Nat) (m : Memory) (b : Nat) :
    (Memory.insertFrom a vs m).find b = if a ≤ b ∧ b < a + vs.length then vs[b - a]? else m.find b := by
  induction vs generalizing a m with
  | nil => simp [Memory.insertFrom]
  | cons v vs ih =>
    rw [Memory.insertFrom, ih, Memory.find_insert]
    rcases lt_trichotomy b a with h | rfl | h
    · rw [if_neg (by omega), if_neg (by omega), if_neg (by omega)]
    · simp
    · by_cases hb : b < a + 1 + vs.length
      · rw [if_pos (by omega), if_pos (by simp; omega)]
        obtain ⟨d, rfl⟩ : ∃ d, b = a + 1 + d := ⟨b - (a + 1), by omega⟩
        rw [show a + 1 + d - a = d + 1 by omega, show a + 1 + d - (a + 1) = d by omega]
        rfl
      · rw [if_neg (by omega), if_neg (by omega), if_neg (by simp; omega)]

theorem Memory.wf_insertFrom (vs : List Word) (a : Nat) {m : Memory} (h : m.wf = true) :
    (Memory.insertFrom a vs m).wf = true := by
  induction vs generalizing a m with
  | nil => exact h
  | cons v vs ih => exact ih _ (Memory.wf_insert a v h)

theorem Memory.mem_insertFrom {vs : List Word} {a : Nat} {m : Memory} {e : Nat × Word}
    (h : e ∈ Memory.insertFrom a vs m) : (a ≤ e.1 ∧ e.1 < a + vs.length ∧ e.2 ∈ vs) ∨ e ∈ m := by
  induction vs generalizing a m with
  | nil => exact .inr h
  | cons v vs ih =>
    rcases ih h with ⟨h1, h2, h3⟩ | h
    · exact .inl ⟨by omega, by simp; omega, List.mem_cons_of_mem _ h3⟩
    · rcases Memory.mem_insert h with rfl | h
      · exact .inl ⟨le_refl _, by simp, List.mem_cons_self⟩
      · exact .inr h

end Sys2Proof.Machine
end

