-- ==== Sys2Proof/Laws/Rounds.lean ====
section
/-! SUPPORT. The rounds of ENC and DEC, the loops of KSRUN, and what their building blocks leave unchanged. -/

namespace Sys2Proof.Machine

/-! ## Rounds -/

/-- A round changes HA, HB and LASTRULE only. -/
theorem encRound_eq (k : Nat) (s : State) :
    encRound k s = { s with
      ha := morph s.w (s.ha.xorState (s.rkAt k))
      hb := morph s.w (s.hb.xorState (s.rkAt (k + 1)))
      lastRule := sel (s.hb.xorState (s.rkAt (k + 1))).state } := rfl

/-- A round changes HA, HB and LASTRULE only. -/
theorem decRound_eq (k : Nat) (s : State) :
    decRound k s = { s with
      ha := (morph s.w s.ha).xorPrev (s.rkAt (k - 1))
      hb := (morph s.w s.hb).xorPrev (s.rkAt k)
      lastRule := sel s.ha.state } := rfl

/-- The last of n + 1 rounds is one round more. -/
theorem encRounds_succ (n k : Nat) (s : State) :
    encRounds (n + 1) k s = encRound (k + 2 * n) (encRounds n k s) := by
  induction n generalizing k s with
  | zero => rfl
  | succ n ih => rw [encRounds, ih, encRounds, show k + 2 + 2 * n = k + 2 * (n + 1) by omega]

/-- The last of n + 1 rounds is one round more. -/
theorem decRounds_succ (n k : Nat) (s : State) :
    decRounds (n + 1) k s = decRound (k - 2 * n) (decRounds n k s) := by
  induction n generalizing k s with
  | zero => rfl
  | succ n ih => rw [decRounds, ih, decRounds, show k - 2 - 2 * n = k - 2 * (n + 1) by omega]

/-- n rounds change HA, HB and LASTRULE only. -/
theorem encRounds_frame (n k : Nat) (s : State) :
    encRounds n k s = { s with
      ha := (encRounds n k s).ha, hb := (encRounds n k s).hb, lastRule := (encRounds n k s).lastRule } := by
  induction n with
  | zero => rfl
  | succ n ih => rw [encRounds_succ, encRound_eq, ih]

/-- n rounds change HA, HB and LASTRULE only. -/
theorem decRounds_frame (n k : Nat) (s : State) :
    decRounds n k s = { s with
      ha := (decRounds n k s).ha, hb := (decRounds n k s).hb, lastRule := (decRounds n k s).lastRule } := by
  induction n with
  | zero => rfl
  | succ n ih => rw [decRounds_succ, decRound_eq, ih]

@[simp] theorem encRounds_rkAt (n k a : Nat) (s : State) : (encRounds n k s).rkAt a = s.rkAt a := by
  rw [encRounds_frame]; rfl

@[simp] theorem decRounds_rkAt (n k a : Nat) (s : State) : (decRounds n k s).rkAt a = s.rkAt a := by
  rw [decRounds_frame]; rfl

@[simp] theorem encRounds_params (n k : Nat) (s : State) : (encRounds n k s).params = s.params := by
  rw [encRounds_frame]

@[simp] theorem decRounds_params (n k : Nat) (s : State) : (decRounds n k s).params = s.params := by
  rw [decRounds_frame]

@[simp] theorem encRounds_w (n k : Nat) (s : State) : (encRounds n k s).w = s.w := by
  rw [State.w, encRounds_params]; rfl

@[simp] theorem decRounds_w (n k : Nat) (s : State) : (decRounds n k s).w = s.w := by
  rw [State.w, decRounds_params]; rfl

@[simp] theorem encRounds_rounds (n k : Nat) (s : State) : (encRounds n k s).rounds = s.rounds := by
  rw [encRounds_frame]

@[simp] theorem decRounds_rounds (n k : Nat) (s : State) : (decRounds n k s).rounds = s.rounds := by
  rw [decRounds_frame]

@[simp] theorem encRounds_running (n k : Nat) (s : State) : (encRounds n k s).running = s.running := by
  rw [encRounds_frame]

@[simp] theorem decRounds_running (n k : Nat) (s : State) : (decRounds n k s).running = s.running := by
  rw [decRounds_frame]

/-- Both halves built from the block register, written out. -/
theorem loadBlock_eq (rev : Bool) (s : State) :
    loadBlock rev s = { s with ha := seed s.blk0 s.blk1 rev, hb := seed s.blk2 s.blk3 rev } := rfl

/-- Both halves written back in encrypt order, written out. -/
theorem storeBlock_encrypt_eq (s : State) :
    storeBlock .encrypt s =
      { s with blk0 := s.ha.prev, blk1 := s.ha.state, blk2 := s.hb.prev, blk3 := s.hb.state } := rfl

/-- Both halves written back in decrypt order, written out. -/
theorem storeBlock_decrypt_eq (s : State) :
    storeBlock .decrypt s =
      { s with blk0 := s.ha.state, blk1 := s.ha.prev, blk2 := s.hb.state, blk3 := s.hb.prev } := rfl

/-- Completion, written out. -/
theorem complete_eq (s : State) : s.complete = { s with running := none, done := true } := rfl

@[simp] theorem loadBlock_params (rev : Bool) (s : State) : (loadBlock rev s).params = s.params := rfl

@[simp] theorem loadBlock_rounds (rev : Bool) (s : State) : (loadBlock rev s).rounds = s.rounds := rfl

@[simp] theorem loadBlock_running (rev : Bool) (s : State) : (loadBlock rev s).running = s.running := rfl

@[simp] theorem loadBlock_w (rev : Bool) (s : State) : (loadBlock rev s).w = s.w := rfl

@[simp] theorem loadBlock_r (rev : Bool) (s : State) : (loadBlock rev s).r = s.r := rfl

@[simp] theorem loadBlock_key (rev : Bool) (s : State) : (loadBlock rev s).key = s.key := rfl

@[simp] theorem loadBlock_rk (rev : Bool) (s : State) : (loadBlock rev s).rk = s.rk := rfl

@[simp] theorem loadBlock_rkAt (rev : Bool) (s : State) (a : Nat) : (loadBlock rev s).rkAt a = s.rkAt a := rfl

@[simp] theorem storeBlock_params (ord : StoreOrder) (s : State) : (storeBlock ord s).params = s.params := by cases ord <;> rfl

@[simp] theorem storeBlock_rounds (ord : StoreOrder) (s : State) : (storeBlock ord s).rounds = s.rounds := by cases ord <;> rfl

@[simp] theorem storeBlock_running (ord : StoreOrder) (s : State) : (storeBlock ord s).running = s.running := by cases ord <;> rfl

@[simp] theorem storeBlock_w (ord : StoreOrder) (s : State) : (storeBlock ord s).w = s.w := by cases ord <;> rfl

@[simp] theorem storeBlock_r (ord : StoreOrder) (s : State) : (storeBlock ord s).r = s.r := by cases ord <;> rfl

@[simp] theorem storeBlock_key (ord : StoreOrder) (s : State) : (storeBlock ord s).key = s.key := by cases ord <;> rfl

@[simp] theorem storeBlock_rk (ord : StoreOrder) (s : State) : (storeBlock ord s).rk = s.rk := by cases ord <;> rfl

@[simp] theorem storeBlock_rkAt (ord : StoreOrder) (s : State) (a : Nat) : (storeBlock ord s).rkAt a = s.rkAt a := by cases ord <;> rfl

/-- Stepping a half whose generations are exchanged gives back the generation before, exchanged
(`42_meca.md` R158, R159). -/
theorem mecaStep_exchange (w : Nat) (g : HalfRegs) (rule : Rule) :
    mecaStep w ⟨(mecaStep w g rule).prev, (mecaStep w g rule).state⟩ rule = ⟨g.prev, g.state⟩ := by
  simp [mecaStep]

/-! ## Key schedule -/

/-- For a legal length the literal slot advance stays on slot 0 (`44_key_schedule.md` R189). -/
theorem slotAdvance_zero {n : Nat} (h : 1 ≤ n) : slotAdvance 0 n = 0 := by
  rcases Nat.eq_or_lt_of_le h with rfl | h
  · rfl
  · rw [slotAdvance, Nat.mod_eq_of_lt h]
    simp

/-- The literal slot advance stays inside its array (`44_key_schedule.md` R188). -/
theorem slotAdvance_lt (i : Nat) {n : Nat} (h : 1 ≤ n) : slotAdvance i n < n := by
  have h1 := Int.emod_lt_of_pos ((i : Int) + (((1 % n : Nat) : Int) - 1)) (show (0 : Int) < n by omega)
  have h2 := Int.emod_nonneg ((i : Int) + (((1 % n : Nat) : Int) - 1)) (show (n : Int) ≠ 0 by omega)
  unfold slotAdvance
  omega

/-- A fill step touches the fill index and the schedule only. -/
theorem ksFillStep_length (p : Params) (q : KsWork) : (ksFillStep p q).sched.length = q.sched.length + 1 := by
  simp [ksFillStep]

/-- A mixing pass keeps the schedule's length. -/
theorem ksMixStep_length (w : Nat) (keyAt : Nat → Word) (n k : Nat) (q : KsWork) :
    (ksMixStep w keyAt n k q).sched.length = q.sched.length := by
  simp [ksMixStep]

end Sys2Proof.Machine
end

