-- ==== Sys2Proof/Laws/Edge.lean ====
section
/-! SUPPORT. What the sequencer can do at a clock edge, said once: nothing when idle, one cycle fewer left while cycles
are left, completion at the last. -/

namespace Sys2Proof.Machine

/-- The port's own two fields set: what taking and answering an input changes. -/
def State.withPort (s : State) (l : List Event) (a : Option Response) : State := { s with inputs := l, response := a }

theorem afterInput_eq_withPort (s : State) (l : List Event) : s.afterInput l = s.withPort l none := rfl

theorem encRounds_withPort (l : List Event) (a : Option Response) (n k : Nat) (s : State) :
    encRounds n k (s.withPort l a) = (encRounds n k s).withPort l a := by
  induction n generalizing k s with
  | zero => rfl
  | succ n ih => exact ih (k + 2) (encRound k s)

theorem decRounds_withPort (l : List Event) (a : Option Response) (n k : Nat) (s : State) :
    decRounds n k (s.withPort l a) = (decRounds n k s).withPort l a := by
  induction n generalizing k s with
  | zero => rfl
  | succ n ih => exact ih (k - 2) (decRound k s)

theorem loadBlock_withPort (rev : Bool) (l : List Event) (a : Option Response) (s : State) :
    loadBlock rev (s.withPort l a) = (loadBlock rev s).withPort l a := rfl

theorem storeBlock_withPort (ord : StoreOrder) (l : List Event) (a : Option Response) (s : State) :
    storeBlock ord (s.withPort l a) = (storeBlock ord s).withPort l a := by cases ord <;> rfl

/-- Every command's meaning is a command-level transition whose effect does not touch the port's own fields. -/
theorem exec_is_issue_withPort (i : Instr) : ∃ f : State → State, (∀ s, exec i s = issue (check i s) f s) ∧
    ∀ s l a, f (s.withPort l a) = (f s).withPort l a := by
  cases i with
  | mload h rev => exact ⟨_, fun _ => rfl, fun s l a => by cases h <;> rfl⟩
  | mstore h ord => exact ⟨_, fun _ => rfl, fun s l a => by cases h <;> cases ord <;> rfl⟩
  | mxs h kidx => exact ⟨_, fun _ => rfl, fun s l a => by cases h <;> rfl⟩
  | mxp h kidx => exact ⟨_, fun _ => rfl, fun s l a => by cases h <;> rfl⟩
  | mstep h rule => exact ⟨_, fun _ => rfl, fun s l a => by cases h <;> rfl⟩
  | msel h => exact ⟨_, fun _ => rfl, fun s l a => by cases h <;> rfl⟩
  | mmorph h => exact ⟨_, fun _ => rfl, fun s l a => by cases h <;> rfl⟩
  | enc =>
    refine ⟨_, fun _ => rfl, fun s l a => ?_⟩
    simp only [loadBlock_withPort, encRounds_withPort, storeBlock_withPort]
    rfl
  | dec =>
    refine ⟨_, fun _ => rfl, fun s l a => ?_⟩
    simp only [loadBlock_withPort, decRounds_withPort, storeBlock_withPort]
    rfl
  | _ => exact ⟨_, fun _ => rfl, fun s l a => by rfl⟩

/-- No command reads or writes the port's own fields. -/
theorem carryOut_withPort (i : Instr) (l : List Event) (a : Option Response) (s : State) :
    carryOut i (s.withPort l a) = (carryOut i s).withPort l a := by
  obtain ⟨f, hf, hp⟩ := exec_is_issue_withPort i
  have hc : check i (s.withPort l a) = check i s := by cases i <;> rfl
  rw [carryOut, carryOut, hf, hf, hc]
  by_cases hr : s.running = none
  · cases h : check i s with
    | some code => rw [issue_of_refused f hr, issue_of_refused f (s := s.withPort l a) hr]; rfl
    | none => rw [issue_of_accepted f hr, issue_of_accepted f (s := s.withPort l a) hr, hp]; rfl
  · rw [issue_of_busy _ f hr, issue_of_busy _ f (s := s.withPort l a) hr]
    rfl

theorem finish_withPort (task : Task) (l : List Event) (a : Option Response) (s : State) :
    finish task (s.withPort l a) = (finish task s).withPort l a := by
  cases task with
  | unit i => exact carryOut_withPort i l a (s.setRunning none)
  | enc rnd k =>
    simp only [finish, encRounds_withPort, storeBlock_withPort]
    rfl
  | dec rnd k =>
    simp only [finish, decRounds_withPort, storeBlock_withPort]
    rfl
  | ksrun q => rfl

theorem advance_withPort (task : Task) (left : Nat) (l : List Event) (a : Option Response) (s : State) :
    advance task left (s.withPort l a) = (advance task left s).withPort l a := by
  cases task with
  | unit i => rfl
  | enc rnd k =>
    by_cases h : rnd < s.r
    · rw [advance, advance, if_pos h, if_pos (show rnd < (s.withPort l a).r from h)]; rfl
    · rw [advance, advance, if_neg h, if_neg (show ¬ rnd < (s.withPort l a).r from h)]; rfl
  | dec rnd k =>
    by_cases h : rnd < s.r
    · rw [advance, advance, if_pos h, if_pos (show rnd < (s.withPort l a).r from h)]; rfl
    · rw [advance, advance, if_neg h, if_neg (show ¬ rnd < (s.withPort l a).r from h)]; rfl
  | ksrun q =>
    by_cases hf : q.fill < ksLength s
    · rw [advance, advance, if_pos hf, if_pos (show q.fill < ksLength (s.withPort l a) from hf)]; rfl
    · rw [advance, advance, if_neg hf, if_neg (show ¬ q.fill < ksLength (s.withPort l a) from hf)]
      by_cases ht : q.t < ksPasses s
      · rw [if_pos ht, if_pos (show q.t < ksPasses (s.withPort l a) from ht)]; rfl
      · rw [if_neg ht, if_neg (show ¬ q.t < ksPasses (s.withPort l a) from ht)]; rfl

/-- The sequencer neither reads nor writes the port's own fields. -/
theorem clockEdge_withPort (l : List Event) (a : Option Response) (s : State) :
    clockEdge (s.withPort l a) = (clockEdge s).withPort l a := by
  cases h : s.running with
  | none => rw [clockEdge, clockEdge, h, show (s.withPort l a).running = none from h]
  | some q =>
    rw [clockEdge, clockEdge, h, show (s.withPort l a).running = some q from h]
    by_cases hl : q.left ≤ 1
    · simp only [hl, if_true, finish_withPort]
    · simp only [hl, if_false, advance_withPort]

@[simp] theorem clockEdge_afterInput (s : State) (l : List Event) :
    clockEdge (s.afterInput l) = (clockEdge s).afterInput l := clockEdge_withPort l none s

/-- An idle block is left alone by a bare edge. -/
theorem clockEdge_idle {s : State} (h : s.running = none) : clockEdge s = s := by
  simp [clockEdge, h]

/-- One step of a running command keeps the command and everything outside the datapath registers it works in. -/
theorem advance_frame (task : Task) (left : Nat) (s : State) :
    ∃ task', task'.op = task.op ∧ ∃ g g' rule, advance task left s =
      { s with ha := g, hb := g', lastRule := rule, running := some ⟨task', left⟩ } := by
  cases task with
  | unit i => exact ⟨.unit i, rfl, s.ha, s.hb, s.lastRule, rfl⟩
  | enc rnd k =>
    simp only [advance]
    split
    · exact ⟨.enc (rnd + 1) (k + 2), rfl, _, _, _, rfl⟩
    · exact ⟨.enc rnd k, rfl, s.ha, s.hb, s.lastRule, rfl⟩
  | dec rnd k =>
    simp only [advance]
    split
    · exact ⟨.dec (rnd + 1) (k - 2), rfl, _, _, _, rfl⟩
    · exact ⟨.dec rnd k, rfl, s.ha, s.hb, s.lastRule, rfl⟩
  | ksrun q =>
    simp only [advance]
    split
    · exact ⟨.ksrun (ksFill s q), rfl, s.ha, s.hb, s.lastRule, rfl⟩
    · split
      · exact ⟨.ksrun (ksMix s q), rfl, s.ha, s.hb, s.lastRule, rfl⟩
      · exact ⟨.ksrun q, rfl, s.ha, s.hb, s.lastRule, rfl⟩

/-- At an edge that leaves cycles, a running command goes on with one fewer. -/
theorem clockEdge_of_running {s : State} {q : Running} (h : s.running = some q) (hl : 2 ≤ q.left) :
    ∃ task', task'.op = q.task.op ∧ ∃ g g' rule, clockEdge s =
      { s with ha := g, hb := g', lastRule := rule, running := some ⟨task', q.left - 1⟩ } := by
  rw [clockEdge, h]
  simpa [show ¬ q.left ≤ 1 by omega] using advance_frame q.task (q.left - 1) s

theorem complete_running (s : State) : s.complete.running = none := rfl

/-- After completion no command runs. -/
theorem finish_running (task : Task) (s : State) : (finish task s).running = none := by
  cases task with
  | unit i =>
    obtain ⟨f, hf⟩ := exec_is_issue i
    obtain ⟨t, ht⟩ := issue_answers (check i (s.setRunning none)) f (s.setRunning none)
    rw [← hf] at ht
    simp only [finish, carryOut, ht]
    rw [hf] at ht
    obtain ⟨hr, -⟩ | ⟨code, -, -, rfl⟩ | ⟨-, -, rfl⟩ := issue_cases ht
    · exact absurd rfl hr
    · rfl
    · rfl
  | enc rnd k => rfl
  | dec rnd k => rfl
  | ksrun q => rfl

/-- A command's last edge leaves no command running. -/
theorem clockEdge_of_last {s : State} {q : Running} (h : s.running = some q) (hl : q.left ≤ 1) :
    (clockEdge s).running = none := by
  rw [clockEdge, h]
  simpa [hl] using finish_running q.task s

/-- A step with an access performs it on the state the sequencer reaches at that edge. -/
theorem step_of_access {s : State} {a : Access} {rest : List Event} (h : s.inputs = .access a :: rest) :
    step s = .next (performAccess a ((clockEdge s).afterInput rest)) := by
  rw [step_of_input h, stepEvent, clockEdge_afterInput]

/-- A step with a command issues it on the state the sequencer reaches at that edge. -/
theorem step_of_command {s : State} {v : Word} {rest : List Event} (h : s.inputs = .command v :: rest) :
    step s = commandEvent v ((clockEdge s).afterInput rest) := by
  rw [step_of_input h, stepEvent, clockEdge_afterInput]

end Sys2Proof.Machine
end

