-- ==== Sys2Proof/Laws/PerInstr.lean ====
section
/-! SUPPORT. Per-command facts about the syntax: the encoded word of a well-formed command is a 32-bit word
(`30_encoding.md` R100) with the command's opcode in bits [7:0] (R101, R107). -/

namespace Sys2Proof.Laws.EncodedWord

/-- A 32-bit word with `op` in bits [7:0]. -/
def WordOf (op : Nat) (v : Word) : Prop := v.toNat % 2 ^ 8 = op ∧ v.toNat < 2 ^ 32

/-- The command's word has its opcode in bits [7:0] and 0 in bits [63:32]. -/
def Statement (i : Instr) : Prop := i.wellFormed = true → WordOf i.opcode (encode i)

/-- Putting a field above bit 7 into a word keeps its opcode. -/
theorem WordOf.or {op : Nat} {v x : Word} (h : WordOf op v) (hx : WordOf 0 x) : WordOf op (v ||| x) := by
  rw [WordOf, BitVec.toNat_or, Nat.or_mod_two_pow, h.1, hx.1, Nat.or_zero]
  exact ⟨rfl, Nat.or_lt_two_pow h.2 hx.2⟩

theorem imm8_field {n : Nat} (h : n < 256) : WordOf 0 (imm8 n) := by
  have : (imm8 n).toNat = n * 256 := by
    rw [imm8, BitVec.toNat_shiftLeft, BitVec.toNat_ofNat, Nat.shiftLeft_eq]
    omega
  rw [WordOf, this]
  omega

theorem bitAt_16 (b : Bool) : WordOf 0 (bitAt b 16) := by cases b <;> exact ⟨by decide, by decide⟩

theorem bitAt_17 (b : Bool) : WordOf 0 (bitAt b 17) := by cases b <;> exact ⟨by decide, by decide⟩

theorem bitAt_18 (b : Bool) : WordOf 0 (bitAt b 18) := by cases b <;> exact ⟨by decide, by decide⟩

theorem opcode_word {op : Word} (h : op.toNat < 256) : WordOf op.toNat op := ⟨by omega, by omega⟩

theorem kidx_field {kidx : Nat} (h : kidxFits kidx = true) : WordOf 0 (imm8 kidx) :=
  imm8_field (by simpa [kidxFits] using h)

theorem rule_field (rule : Rule) : WordOf 0 (imm8 rule.toNat) := imm8_field rule.isLt

theorem nop : Statement .nop := fun _ => opcode_word (by decide)

theorem nbidx (l c r : Bool) : Statement (.nbidx l c r) := fun _ =>
  (((opcode_word (op := 0x01) (by decide)).or (bitAt_18 l)).or (bitAt_17 c)).or (bitAt_16 r)

theorem rulebit (rule : Rule) (l c r : Bool) : Statement (.rulebit rule l c r) := fun _ =>
  ((((opcode_word (op := 0x02) (by decide)).or (rule_field rule)).or (bitAt_18 l)).or (bitAt_17 c)).or (bitAt_16 r)

theorem castep (rule : Rule) (bnd : Boundary) : Statement (.castep rule bnd) := fun _ =>
  ((opcode_word (op := 0x03) (by decide)).or (rule_field rule)).or (bitAt_17 bnd.bit)

theorem mload (h : Half) (rev : Bool) : Statement (.mload h rev) := fun _ =>
  ((opcode_word (op := 0x10) (by decide)).or (bitAt_16 h.bit)).or (bitAt_17 rev)

theorem mstore (h : Half) (ord : StoreOrder) : Statement (.mstore h ord) := fun _ =>
  ((opcode_word (op := 0x11) (by decide)).or (bitAt_16 h.bit)).or (bitAt_17 ord.bit)

theorem mxs (h : Half) (kidx : Nat) : Statement (.mxs h kidx) := fun hk =>
  ((opcode_word (op := 0x12) (by decide)).or (kidx_field hk)).or (bitAt_16 h.bit)

theorem mxp (h : Half) (kidx : Nat) : Statement (.mxp h kidx) := fun hk =>
  ((opcode_word (op := 0x13) (by decide)).or (kidx_field hk)).or (bitAt_16 h.bit)

theorem mstep (h : Half) (rule : Rule) : Statement (.mstep h rule) := fun _ =>
  ((opcode_word (op := 0x14) (by decide)).or (rule_field rule)).or (bitAt_16 h.bit)

theorem msel (h : Half) : Statement (.msel h) := fun _ => (opcode_word (op := 0x15) (by decide)).or (bitAt_16 h.bit)

theorem mmorph (h : Half) : Statement (.mmorph h) := fun _ =>
  (opcode_word (op := 0x16) (by decide)).or (bitAt_16 h.bit)

theorem ksrun : Statement .ksrun := fun _ => opcode_word (op := 0x20) (by decide)

theorem ernd (kidx : Nat) : Statement (.ernd kidx) := fun hk =>
  (opcode_word (op := 0x30) (by decide)).or (kidx_field hk)

theorem drnd (kidx : Nat) : Statement (.drnd kidx) := fun hk =>
  (opcode_word (op := 0x31) (by decide)).or (kidx_field hk)

theorem enc : Statement .enc := fun _ => opcode_word (op := 0x32) (by decide)

theorem dec : Statement .dec := fun _ => opcode_word (op := 0x33) (by decide)

end Sys2Proof.Laws.EncodedWord
end

