-- ==== Sys2Proof/Tests/Slice0.lean ====
section
/-! SUPPORT. The model's own tests: ill-formed terms, words written out from the encodings of the spec, single steps with
the results of `95_test_vectors.md` and of the rules' examples, and for each statement with hypotheses a concrete state
and operands that meet them all. -/

open Sys2Proof Sys2Proof.Machine

namespace Sys2Proof.Tests

/-- An idle instance right after reset, RMAX = 32. -/
def inst (width : Width) : State := State.resetOf ⟨width, 31⟩ 0

/-- The state a transition leads to. -/
def after : Host.Outcome State Fault Refusal → State
  | .next t => t
  | .fault _ => State.reset
  | .refused _ => State.reset

/-- A state with these inputs. -/
def withInputs (s : State) (l : List Event) : State := { s with inputs := l }

/-- A busy instance: a NOP with two cycles to go. -/
def busyInst : State := { inst .w16 with running := some ⟨.unit .nop, 2⟩ }

/-- An instance configured for the schedule and rounds of vector KS2 and E1 (`95_test_vectors.md` L2.6, L2.7). -/
def cfg1 : State :=
  { inst .w16 with rounds := 1, keylen := 1, key := [(0, 0x1234)], rk := [(0, 0x93F8), (1, 0x5618)] }

/-! ## WellFormed: one ill-formed term for each check (`30_encoding.md` R118) -/

theorem test_wf_mxs : (Instr.mxs .A 256).wellFormed = false := by decide
theorem test_wf_mxp : (Instr.mxp .B 300).wellFormed = false := by decide
theorem test_wf_ernd : (Instr.ernd 256).wellFormed = false := by decide
theorem test_wf_drnd : (Instr.drnd 1000).wellFormed = false := by decide

/-! ## Decoding: words of `30_encoding.md` R118 and of the rules' examples; the last two written out bit by bit -/

theorem test_decode_nop : decode 0x00000000 = .ok .nop := by rfl
theorem test_decode_nbidx : decode 0x00060001 = .ok (.nbidx true true false) := by rfl
theorem test_decode_rulebit : decode 0x00041E02 = .ok (.rulebit 30 true false false) := by rfl
theorem test_decode_castep : decode 0x00025A03 = .ok (.castep 90 .zero) := by rfl
theorem test_decode_mload : decode 0x00030010 = .ok (.mload .B true) := by rfl
theorem test_decode_mstore : decode 0x00020011 = .ok (.mstore .A .decrypt) := by rfl
theorem test_decode_mxs : decode 0x00003F12 = .ok (.mxs .A 63) := by rfl
theorem test_decode_mxp : decode 0x00010113 = .ok (.mxp .B 1) := by rfl
theorem test_decode_mstep : decode 0x0000FF14 = .ok (.mstep .A 255) := by rfl
theorem test_decode_msel : decode 0x00010015 = .ok (.msel .B) := by rfl
theorem test_decode_mmorph : decode 0x00000016 = .ok (.mmorph .A) := by rfl
theorem test_decode_ksrun : decode 0x00000020 = .ok .ksrun := by rfl
theorem test_decode_ernd : decode 0x00003E30 = .ok (.ernd 62) := by rfl
theorem test_decode_drnd : decode 0x0000FF31 = .ok (.drnd 255) := by rfl
theorem test_decode_enc : decode 0b00000000000000000000000000110010 = .ok .enc := by rfl
theorem test_decode_dec : decode 0b00000000000000000000000000110011 = .ok .dec := by rfl

/-! ## Refused words (`95_test_vectors.md` L2.8) -/

theorem test_refused_opcode : decode 0xFFFF00FF = .error .undefinedOpcode := by rfl
theorem test_refused_upper : decode 0x100000032 = .error .reservedBits := by rfl
theorem test_refused_castep : decode 0x00011E03 = .error .reservedBits := by rfl
theorem test_refused_mload : decode 0x00000110 = .error .reservedBits := by rfl
theorem test_refused_ksrun_before_rounds :
    (after (step ((inst .w16).withFetchWord 64 0x00000120))).err = .reserved := by decide
theorem test_refused_enc : (after (exec .enc { inst .w16 with rounds := 33 })).err = .rounds := by decide
theorem test_refused_keylen : (after (exec .ksrun { inst .w64 with rounds := 1, keylen := 33 })).err = .keylen := by
  decide
theorem test_refused_ernd : (after (exec (.ernd 63) (inst .w16))).err = .kidx := by decide
theorem test_accepted_ernd : (after (exec (.ernd 62) (inst .w16))).err = .none := by decide

/-! ## Commands (`95_test_vectors.md` L2.1 to L2.7) -/

theorem test_nop : (after (exec .nop (inst .w16))).done = true := by decide
theorem test_nbidx : (after (exec (.nbidx true false false) (inst .w16))).res = 4 := by decide
theorem test_rulebit : (after (exec (.rulebit 110 false true false) (inst .w16))).res = 1 := by decide
theorem test_castep_periodic : (after (exec (.castep 110 .periodic) { inst .w16 with car := 0xACE1 })).car = 0xFEB1 := by
  decide
theorem test_castep_zero : (after (exec (.castep 30 .zero) { inst .w32 with car := 0xDEADBEEF })).car = 0x42A48221 := by
  decide
theorem test_mload :
    (after (exec (.mload .A false) { inst .w16 with blk0 := 0x1234, blk1 := 0x5678 })).ha = ⟨0x5678, 0x1234⟩ := by
  decide
theorem test_mstore : (after (exec (.mstore .A .encrypt) { inst .w16 with ha := ⟨0xB5F3, 0x93F8⟩ })).blk0 = 0x93F8 := by
  decide
theorem test_mxs : (after (exec (.mxs .A 0) cfg1)).ha = ⟨0x93F8, 0⟩ := by decide
theorem test_mxp : (after (exec (.mxp .B 1) { cfg1 with hb := ⟨7, 0x5618⟩ })).hb = ⟨7, 0⟩ := by decide
theorem test_mstep :
    (after (exec (.mstep .A 30) { inst .w16 with ha := ⟨0x5678, 0x1234⟩ })).ha = ⟨0xC1B8, 0x5678⟩ := by decide
theorem test_msel : (after (exec (.msel .B) { inst .w16 with hb := ⟨0x1337, 0⟩ })).res = 173 := by decide
theorem test_msel_all_ones : (after (exec (.msel .A) { inst .w32 with ha := ⟨0xFFFFFFFF, 0⟩ })).lastRule = 149 := by
  decide
theorem test_mmorph : (after (exec (.mmorph .A) { inst .w16 with ha := ⟨0x1337, 0⟩ })).ha = ⟨0x511B, 0x1337⟩ := by
  decide
theorem test_ksrun_ks2 : (after (exec .ksrun cfg1)).rk = [(0, 0x93F8), (1, 0x5618)] := by decide +kernel
theorem test_ksrun_ks5 :
    (after (exec .ksrun { inst .w32 with rounds := 2, keylen := 1, key := [(0, 0x01234567)] })).rk =
      [(0, 0x11F44F11), (1, 0x5618CB1B), (2, 0xF45044D4), (3, 0x9287BE8D)] := by decide +kernel
theorem test_ernd :
    (after (exec (.ernd 0) cfg1)).ha = ⟨0xB5F3, 0x93F8⟩ ∧ (after (exec (.ernd 0) cfg1)).hb = ⟨0x7904, 0x5618⟩ := by
  decide
theorem test_drnd :
    (after (exec (.drnd 1) { cfg1 with ha := ⟨0x93F8, 0xB5F3⟩, hb := ⟨0x5618, 0x7904⟩ })).lastRule = 149 := by decide
theorem test_enc_e1 : (after (exec .enc cfg1)).blk1 = 0xB5F3 ∧ (after (exec .enc cfg1)).blk2 = 0x5618 := by decide
theorem test_enc_e3 :
    (after (exec .enc { inst .w32 with
      rounds := 2, blk1 := 1, blk2 := 0xDEADBEEF, blk3 := 0xFFFFFFFF
      rk := [(0, 0x11F44F11), (1, 0x5618CB1B), (2, 0xF45044D4), (3, 0x9287BE8D)] })).blk3 = 0x9F58046C := by
  decide +kernel
theorem test_dec_e2 :
    (after (exec .dec { inst .w16 with
      rounds := 2, blk0 := 0xD845, blk1 := 0x9C68, blk2 := 0x47B7, blk3 := 0x85C7
      rk := [(0, 0xC7F3), (1, 0x5618), (2, 0xF44F), (3, 0x9286)] })).blk3 = 0x0004 := by decide +kernel

/-! ## Port (`95_test_vectors.md` L2.9) -/

theorem test_id_w16 : idImage (inst .w16).params = 0x4D45434107802010 := by decide
theorem test_id_w64_rmax15 : idImage ⟨.w64, 14⟩ = 0x4D45434107200F40 := by decide
theorem test_write_masks :
    (after (step (withInputs (inst .w16) [.access (.write 0x080 8 0xFFFFFFFFFFFF1234)]))).blk0 = 0x1234 := by decide
theorem test_misaligned :
    (after (step (withInputs (inst .w16) [.access (.read 0x004 8)]))).response = some .error := by decide
theorem test_absent_key :
    (after (step (withInputs (inst .w64) [.access (.read 0x500 8)]))).response = some (.okRead 0) := by decide
theorem test_absent_rk_write :
    (after (step (withInputs (inst .w16) [.access (.write 0xA00 8 5)]))).rk = [] := by decide
theorem test_busy_write_dropped :
    (after (step (withInputs busyInst [.access (.write 0x050 8 5)]))).err = .busy := by decide
theorem test_accept_sets_busy :
    statusImage (after (step (withInputs (inst .w16) [.access (.write 0x020 8 0)]))) = 1 := by decide
theorem test_polling_sees_busy_fall :
    (after (step (after (step (withInputs busyInst [.access (.read 0x010 8), .access (.read 0x010 8)]))))).response =
      some (.okRead 2) := by decide
theorem test_read_blk1 :
    (after (step (withInputs { inst .w16 with blk0 := 1, blk1 := 2 } [.access (.read 0x088 8)]))).response =
      some (.okRead 2) := by decide
theorem test_error_codes :
    [ErrCode.none, .busy, .opcode, .reserved, .rounds, .keylen, .kidx].map ErrCode.code = [0, 1, 2, 3, 4, 5, 6] := by decide
theorem test_clock_completes :
    statusImage (clockEdge { inst .w16 with running := some ⟨.unit .nop, 1⟩ }) = 2 := by decide
theorem test_status_of_ksrun : statusImage (after (exec .ksrun cfg1)) = 6 := by decide +kernel
theorem test_irq_on_error : (after (exec .enc { inst .w16 with ieErr := true })).irq = true := by decide
theorem test_byte_lane : byteLane 0x0123456789ABCDEF 0 = 0xEF := by decide
theorem test_reset_ends_command : (after (step (withInputs busyInst [.rst none]))).running = none := by decide

/-! ## Witnesses: hypotheses of the statements met together -/

theorem witness_DecodeEncodeRoundTrip :
    (Instr.mxs .B 255).wellFormed = true ∧ (Instr.drnd 0).wellFormed = true := by decide
theorem witness_DecodedWordHasOneMeaning : decode 0x00013F12 = .ok (.mxs .B 63) := by rfl
theorem witness_UndefinedOpcodeRefused :
    (inst .w16).running = none ∧
      (∀ v ∈ ([0x04, 0x0F, 0xABCD17, 0x1F, 0x21, 0x2F, 0x34, 0xFFFF00FF] : List Word),
        0x04 ≤ v.toNat % 256 ∧ v.toNat % 256 ≤ 0x0F ∨ 0x17 ≤ v.toNat % 256 ∧ v.toNat % 256 ≤ 0x1F ∨
          0x21 ≤ v.toNat % 256 ∧ v.toNat % 256 ≤ 0x2F ∨ 0x34 ≤ v.toNat % 256) ∧
      (withInputs (inst .w16) [.command 0x04]).inputs = .command 0x04 :: [] := by
  refine ⟨rfl, by simp, rfl⟩
theorem witness_ReservedBitsRefused :
    (inst .w16).running = none ∧ ((0x12, 0xFFFFFFFFFFFE00FF) : Word × Word) ∈ opcodeRows ∧
      (0x00400012 : Word).toNat % 256 = (0x12 : Word).toNat ∧ (0x00003F12 : Word).toNat % 256 = (0x12 : Word).toNat ∧
      (0x00400012 : Word) &&& 0xFFFFFFFFFFFE00FF ≠ 0x12 ∧ (0x00003F12 : Word) &&& 0xFFFFFFFFFFFE00FF = 0x12 := by decide
theorem witness_StepRunsDecodedCommand :
    (withInputs (inst .w16) [.command 0x33]).inputs = .command 0x33 :: [] ∧ decode 0x33 = .ok .dec ∧
      (inst .w16).running = none := ⟨rfl, rfl, rfl⟩
theorem witness_StepKeepsParamsAndOrder :
    ∃ t, step (withInputs (inst .w32) [.clock, .rst none]) = .next t := ⟨_, rfl⟩
theorem witness_RecordedErrorIsSticky :
    (∃ t, step (withInputs { inst .w16 with err := .kidx } [.rst none]) = .next t ∧ t.err ≠ .kidx) ∧
      ∃ t, step (withInputs { inst .w16 with err := .kidx } [.access (.write 0x010 8 0x100)]) = .next t ∧
        t.err ≠ .kidx :=
  ⟨⟨_, rfl, by decide⟩, ⟨_, rfl, by decide⟩⟩
theorem witness_CmdWriteChecksInOrder :
    (clockEdge busyInst).running ≠ none ∧ refusalCode 0x00000031 (inst .w16) = some .kidx ∧
      refusalCode 0x00000120 (inst .w16) = some .reserved ∧ refusalCode 0x00000032 (inst .w16) = some .rounds ∧
      refusalCode 0x00000020 { inst .w16 with rounds := 1 } = some .keylen ∧
      refusalCode 0x00000004 (inst .w16) = some .opcode ∧ refusalCode 0x00003E30 (inst .w16) = none ∧
      refusalCode 0x00003F30 (inst .w16) = some .kidx ∧ refusalCode 0x00003F31 (inst .w16) = none := by decide
theorem witness_AcceptanceStartsCommand :
    cfg1.running = none ∧ decode 0x20 = .ok .ksrun ∧ refusalCode 0x20 cfg1 = none ∧
      (withInputs cfg1 [.access (.write 0x020 8 0x20)]).inputs = .access (.write 0x020 8 0x20) :: [] :=
  ⟨rfl, rfl, by decide, rfl⟩
theorem witness_WriteThenClocksIsExec :
    ∃ s : State, s.running = none ∧ decode 0x32 = .ok .enc ∧ check .enc s = none ∧
      s.inputs = .access (.write 0x020 8 0x32) :: (List.replicate (latency .enc s) .clock ++ []) :=
  ⟨withInputs cfg1 (.access (.write 0x020 8 0x32) :: (List.replicate (latency .enc cfg1) .clock ++ [])),
    rfl, rfl, by decide, rfl⟩
theorem witness_BusyFallsAfterLatency :
    ∃ s : State, s.running = some ⟨.unit .nop, 2⟩ ∧ s.done = false ∧ check (Task.unit .nop).op s = none ∧
      2 = [Event.access (.write 0x050 8 1)].length + 1 ∧ (∀ a, .rst a ∉ [Event.access (.write 0x050 8 1)]) ∧
      s.inputs = [.access (.write 0x050 8 1)] ++ .access (.read 0x010 8) :: [] :=
  ⟨withInputs busyInst [.access (.write 0x050 8 1), .access (.read 0x010 8)], rfl, rfl, rfl, rfl, by simp, rfl⟩
/-- The last event a bare edge, and the command's last cycle. -/
theorem witness_BusyFallsAfterLatency_last :
    ∃ s : State, s.running = some ⟨.unit .nop, 1⟩ ∧ s.done = false ∧ check (Task.unit .nop).op s = none ∧
      1 = ([] : List Event).length + 1 ∧ s.inputs = [] ++ .clock :: [] :=
  ⟨{ withInputs busyInst [.clock] with running := some ⟨.unit .nop, 1⟩ }, rfl, rfl, rfl, rfl, rfl⟩
theorem witness_HostCannotStallTheSequencer :
    (inst .w16).running = none ∧ busyInst.running = some ⟨.unit .nop, 2⟩ ∧
      (∀ a, Event.access (.write 0x020 8 0x32) ≠ .rst a) ∧
      (withInputs busyInst [.access (.write 0x020 8 0x32)]).inputs = .access (.write 0x020 8 0x32) :: [] :=
  ⟨rfl, rfl, by simp, rfl⟩
theorem witness_LatencyDependsOnNoData :
    (Instr.mxs .A 3).opcode = (Instr.mxs .B 9).opcode ∧ cfg1.params.width = (inst .w16).params.width ∧
      (Instr.mxs .A 3 = .ksrun ∨ Instr.mxs .A 3 = .enc ∨ Instr.mxs .A 3 = .dec → cfg1.rounds = (inst .w16).rounds) ∧
      (Instr.mxs .A 3 = .ksrun → cfg1.keylen = (inst .w16).keylen) := by decide
theorem witness_BusyDropsEveryCommand :
    busyInst.running ≠ none ∧ (clockEdge busyInst).running ≠ none ∧
      (withInputs busyInst [.access (.write 0x020 8 0x32)]).inputs = .access (.write 0x020 8 0x32) :: [] := by decide
theorem witness_RoundsOrKeylenRefused :
    (inst .w64).running = none ∧ (inst .w64).rounds.toNat = 0 ∧
      ({ inst .w64 with rounds := 33 } : State).params.rmax < ({ inst .w64 with rounds := 33 } : State).rounds.toNat ∧
      ({ inst .w64 with rounds := 1 } : State).RoundsLegal ∧
      kmaxTable ({ inst .w64 with keylen := 33 } : State).params.width <
        ({ inst .w64 with keylen := 33 } : State).keylen.toNat :=
  ⟨rfl, rfl, by decide, ⟨by decide, by decide⟩, by decide⟩
/-- Index 64 for MXS and MXP, 63 for ERND, 0 and 64 for DRND, with RMAX = 32. -/
theorem witness_KeyIndexOutOfRangeRefused :
    (inst .w16).running = none ∧ 2 * (inst .w16).params.rmax ≤ 64 ∧ 2 * (inst .w16).params.rmax ≤ 63 + 1 := by decide
theorem witness_OnlyTheWriteSetChanges :
    (∃ t, exec .ksrun cfg1 = .next t) ∧ Reg.rk 2 ≠ .status ∧
      Reg.rk 2 ∉ writeSet .ksrun (2 * cfg1.rounds.toNat) ∧ Reg.key 0 ∉ writeSet .ksrun (2 * cfg1.rounds.toNat) :=
  ⟨⟨_, rfl⟩, by decide, by decide, by decide⟩
theorem witness_NopOnlyCompletes : (inst .w64).running = none := rfl
theorem witness_NbidxWritesIndex : (inst .w64).running = none := rfl
theorem witness_RulebitWritesRuleBit : (inst .w64).running = none := rfl
theorem witness_CastepComputesEveryCell : (inst .w64).running = none := rfl
theorem witness_CastepExtremalRules : (inst .w64).running = none := rfl
theorem witness_MloadSplitsSeed : (inst .w64).running = none := rfl
theorem witness_MstoreWritesBothOrders : (inst .w64).running = none := rfl
theorem witness_MstepIsOneGeneration : (inst .w64).running = none := rfl
theorem witness_MstepRunsBackwards : (inst .w64).running = none := rfl
theorem witness_MselReadsThePool : (inst .w64).running = none := rfl
theorem witness_MmorphStepsUnderSelectedRule : (inst .w64).running = none := rfl
theorem witness_CaBitParallelForm : Fits Width.w16.bits 0xFFFF ∧ Fits Width.w64.bits 0x8000000000000001 :=
  ⟨by unfold Fits; decide, by unfold Fits; decide⟩
theorem witness_MxsXorsCurrentGeneration : cfg1.running = none ∧ 63 < 2 * cfg1.params.rmax := by decide
theorem witness_MxpXorsPreviousGeneration : cfg1.running = none ∧ 63 < 2 * cfg1.params.rmax := by decide
theorem witness_ErndIsOneRound : cfg1.running = none ∧ 62 + 1 < 2 * cfg1.params.rmax := by decide
theorem witness_DrndIsOneRound : cfg1.running = none ∧ 1 ≤ 1 ∧ 1 ≤ 63 ∧ 63 < 2 * cfg1.params.rmax := by decide
theorem witness_CompositesAreUnitCommands :
    cfg1.running = none ∧ 62 < 2 * cfg1.params.rmax ∧ 62 + 1 < 2 * cfg1.params.rmax ∧ 1 ≤ 62 := by decide
theorem witness_KsrunClosedForm :
    cfg1.running = none ∧ ({ cfg1 with rounds := 32 } : State).RoundsLegal ∧
      ({ cfg1 with keylen := 128 } : State).KeylenLegal ∧ 1 ≤ 1 ∧ 1 < 2 * cfg1.rounds.toNat :=
  ⟨rfl, ⟨by decide, by decide⟩, ⟨by decide, by decide⟩, by decide, by decide⟩
theorem witness_EncRunsEachHalf : cfg1.running = none ∧ cfg1.RoundsLegal :=
  ⟨rfl, by decide, by decide⟩
theorem witness_DecRunsEachHalf : cfg1.running = none ∧ cfg1.RoundsLegal :=
  ⟨rfl, by decide, by decide⟩
theorem witness_EncIsUnitSequence : cfg1.running = none ∧ cfg1.RoundsLegal :=
  ⟨rfl, by decide, by decide⟩
theorem witness_DecIsUnitSequence : cfg1.running = none ∧ cfg1.RoundsLegal :=
  ⟨rfl, by decide, by decide⟩
theorem witness_DecUndoesEnc : cfg1.running = none ∧ cfg1.RoundsLegal :=
  ⟨rfl, by decide, by decide⟩
theorem witness_EncUndoesDec : cfg1.running = none ∧ cfg1.RoundsLegal :=
  ⟨rfl, by decide, by decide⟩
theorem witness_HalvesNeverInteract :
    ∃ s s' : State, s.running = none ∧ s'.running = none ∧ s.RoundsLegal ∧ s.params = s'.params ∧
      s.rounds = s'.rounds ∧ s.blk0 = s'.blk0 ∧ s.blk1 = s'.blk1 ∧ s.blk2 ≠ s'.blk2 ∧
      (∀ m, m < s.rounds.toNat → s.rkAt (2 * m) = s'.rkAt (2 * m)) ∧ s.rkAt 1 ≠ s'.rkAt 1 := by
  refine ⟨cfg1, { cfg1 with blk2 := 5, rk := [(0, 0x93F8), (1, 7)] }, rfl, rfl, ⟨by decide, by decide⟩, rfl, rfl, rfl,
    rfl, by decide, ?_, by decide⟩
  intro m hm
  have : m = 0 := Nat.lt_one_iff.1 hm
  subst this
  rfl
theorem witness_IllegalAccessAnsweredError :
    (4 ≠ 8 ∨ (0x000 : BitVec 12).toNat % 8 ≠ 0) ∧ (8 ≠ 8 ∨ (0xFFF : BitVec 12).toNat % 8 ≠ 0) ∧
      (withInputs (inst .w16) [.access (.write 0xFFF 8 1)]).inputs = .access (.write 0xFFF 8 1) :: [] := by decide
theorem witness_ReservedOffsetsReadZero :
    ∀ addr ∈ ([0x058, 0x078, 0x0C0, 0x3F8, 0x500, 0x7F8, 0xA00, 0xFF8] : List (BitVec 12)), addr.toNat % 8 = 0 ∧
      (0x058 ≤ addr.toNat ∧ addr.toNat < 0x080 ∨ 0x0C0 ≤ addr.toNat ∧ addr.toNat < 0x400 ∨
        0x400 + 8 * kmaxTable (inst .w64).params.width ≤ addr.toNat ∧ addr.toNat < 0x800 ∨
        0x800 + 16 * (inst .w64).params.rmax ≤ addr.toNat) := by
  simp [inst, State.resetOf, kmaxTable, Params.rmax]
theorem witness_ReadsHaveNoSideEffects :
    (withInputs (inst .w16) [.access (.read 0x800 8)]).inputs = .access (.read 0x800 8) :: [] ∧
      (clockEdge (inst .w16)).running = none ∧ (0x400 : BitVec 12).toNat = 0x400 + 8 * 0 ∧
      (0x7F8 : BitVec 12).toNat = 0x400 + 8 * 127 ∧ 127 < kmaxTable (inst .w16).params.width ∧
      (0x800 : BitVec 12).toNat = 0x800 + 8 * 0 ∧ (0x9F8 : BitVec 12).toNat = 0x800 + 8 * 63 ∧
      63 < 2 * (inst .w16).params.rmax := by decide
theorem witness_BusyReadOutsideWriteSet :
    busyInst.running = some ⟨.unit .nop, 2⟩ ∧ 2 ≤ 2 ∧ (0x050 : BitVec 12).toNat % 8 = 0 ∧
      regAt busyInst.params 0x050 ∉ writeSet (Task.unit .nop).op (2 * busyInst.rounds.toNat) ∧
      regAt busyInst.params 0x010 = .status ∧ regAt busyInst.params 0x008 = .ctrl := by decide
theorem witness_WritesWhileBusy :
    (clockEdge busyInst).running ≠ none ∧ (0x008 : BitVec 12).toNat % 8 = 0 ∧ (0x010 : BitVec 12).toNat % 8 = 0 ∧
      (0xFF8 : BitVec 12).toNat % 8 = 0 ∧ (withInputs busyInst [.access (.write 0xFF8 8 1)]).inputs ≠ [] := by decide
theorem witness_StatusReadAndWrite :
    (withInputs busyInst [.access (.read 0x010 8)]).inputs = .access (.read 0x010 8) :: [] ∧
      (withInputs busyInst [.access (.write 0x010 8 2)]).inputs = .access (.write 0x010 8 2) :: [] := by decide
theorem witness_WriteThenReadDatapath :
    (inst .w16).running = none ∧
      ∀ addr ∈ ([0x050, 0x080, 0x0B8, 0x400, 0x7F8, 0x800, 0x9F8] : List (BitVec 12)), addr.toNat % 8 = 0 ∧
        (addr = 0x050 ∨ 0x080 ≤ addr.toNat ∧ addr.toNat < 0x0C0 ∨
          0x400 ≤ addr.toNat ∧ addr.toNat < 0x400 + 8 * kmaxTable (inst .w16).params.width ∨
          0x800 ≤ addr.toNat ∧ addr.toNat < 0x800 + 16 * (inst .w16).params.rmax) := by
  refine ⟨rfl, ?_⟩
  simp [inst, State.resetOf, kmaxTable, Params.rmax]
theorem witness_ControlRegisterWrites :
    (inst .w16).running = none ∧
      (withInputs (inst .w16) [.access (.write 0x018 8 2)]).inputs = .access (.write 0x018 8 2) :: [] := by decide
theorem witness_IdReportsParameters :
    (withInputs (inst .w16) [.access (.read 0x000 8)]).inputs = .access (.read 0x000 8) :: [] := rfl
theorem witness_InterruptIsLevelOfPendingSources :
    ({ inst .w16 with done := true, ieDone := true } : State).irq = true ∧
      ({ inst .w16 with done := true, ieErr := true } : State).irq = false := by decide
theorem witness_SchedValidRule :
    (∃ t, step (withInputs cfg1 [.command 0x20]) = .next t ∧ cfg1.schedValid = false ∧ t.schedValid = true) ∧
      ∀ addr ∈ ([0x018, 0x028, 0x400, 0x7F8, 0x800, 0x9F8] : List (BitVec 12)), addr.toNat % 8 = 0 ∧
        (addr = 0x018 ∨ addr = 0x028 ∨
          0x400 ≤ addr.toNat ∧ addr.toNat < 0x400 + 8 * kmaxTable (inst .w16).params.width ∨
          0x800 ≤ addr.toNat ∧ addr.toNat < 0x800 + 16 * (inst .w16).params.rmax) := by
  refine ⟨⟨_, rfl, rfl, rfl⟩, ?_⟩
  simp [inst, State.resetOf, kmaxTable, Params.rmax]
theorem witness_SchedValidRule_write :
    ∃ t, step (withInputs { inst .w16 with schedValid := true } [.access (.write 0x018 8 1)]) = .next t := ⟨_, rfl⟩
theorem witness_ResetEdgeRestoresResetState :
    (withInputs busyInst [.rst (some (.read 0 8))]).inputs = .rst (some (.read 0 8)) :: [] := rfl
theorem witness_ResetRegisterValues :
    (∀ j, Reg.car ≠ .key j) ∧ (∀ j, Reg.car ≠ .rk j) ∧ Reg.car ≠ .id ∧ Reg.car ≠ .ksP ∧ Reg.car ≠ .ksQ := by simp
theorem witness_StepKeepsInvariant : busyInst.Inv ∧ ∃ t, step busyInst = .next t := by
  refine ⟨⟨⟨fits_zero _, fits_zero _, fits_zero _, fits_zero _, fits_zero _, fits_zero _, ⟨fits_zero _, fits_zero _⟩,
    ⟨fits_zero _, fits_zero _⟩, ⟨rfl, by simp [busyInst, inst, State.resetOf]⟩,
    ⟨rfl, by simp [busyInst, inst, State.resetOf]⟩⟩, ?_⟩, _, rfl⟩
  intro q hq
  obtain rfl : (⟨.unit .nop, 2⟩ : Running) = q := Option.some.inj hq
  exact ⟨⟨rfl, rfl⟩, by decide, rfl⟩

end Sys2Proof.Tests
end

section
/-! Laws of one step: the effect of an accepted command, what each shared operation can do, and what the sequencer's
part of an edge leaves unchanged. -/

namespace Sys2Proof.Machine

/-! ## The rules of one step -/

/-- The four things a step can do: a bare clock edge, a clock edge with an access, a reset edge, a command. -/
theorem step_cases {s t : State} (h : step s = .next t) :
    ((s.inputs = [] ∨ ∃ rest, s.inputs = .clock :: rest) ∧ t = (clockEdge s).afterInput s.inputs.tail) ∨
      (∃ a rest, s.inputs = .access a :: rest ∧ t = performAccess a ((clockEdge s).afterInput rest)) ∨
      (∃ a rest, s.inputs = .rst a :: rest ∧ t = resetBlock (s.afterInput rest)) ∨
      (∃ v rest, s.inputs = .command v :: rest ∧ commandEvent v ((clockEdge s).afterInput rest) = .next t) := by
  cases hi : s.inputs with
  | nil =>
    rw [step_of_no_input hi, clockEdge_afterInput] at h
    exact .inl ⟨.inl rfl, (Host.Outcome.next.inj h).symm⟩
  | cons e rest =>
    cases e with
    | clock =>
      rw [step_of_input hi, stepEvent, clockEdge_afterInput] at h
      exact .inl ⟨.inr ⟨rest, rfl⟩, (Host.Outcome.next.inj h).symm⟩
    | access a =>
      rw [step_of_access hi] at h
      exact .inr (.inl ⟨a, rest, rfl, (Host.Outcome.next.inj h).symm⟩)
    | rst a =>
      rw [step_of_input hi] at h
      exact .inr (.inr (.inl ⟨a, rest, rfl, (Host.Outcome.next.inj h).symm⟩))
    | command v =>
      rw [step_of_command hi] at h
      exact .inr (.inr (.inr ⟨v, rest, rfl, h⟩))

/-! ## The effect of an accepted command -/

/-- What an accepted command does to the registers before it completes: the effect that its meaning in
Machine/Dispatch.lean hands to `issue`. -/
def commandEffect (i : Instr) (s : State) : State :=
  match i with
  | .nop => s
  | .nbidx l c r => s.setRes (BitVec.ofNat 64 (index l c r))
  | .rulebit rule l c r => s.setRes (BitVec.ofNat 64 (ruleBit rule (index l c r)).toNat)
  | .castep rule bnd => (s.setCar (ca s.w s.car rule bnd)).setLastRule rule
  | .mload h rev => loadHalf h rev s
  | .mstore h ord => storeHalf h ord s
  | .mxs h kidx => s.setHalf h ((s.half h).xorState (s.rkAt kidx))
  | .mxp h kidx => s.setHalf h ((s.half h).xorPrev (s.rkAt kidx))
  | .mstep h rule => (s.setHalf h (mecaStep s.w (s.half h) rule)).setLastRule rule
  | .msel h => (s.setRes ((sel (s.half h).state).setWidth 64)).setLastRule (sel (s.half h).state)
  | .mmorph h => (s.setHalf h (morph s.w (s.half h))).setLastRule (sel (s.half h).state)
  | .ksrun => ksWriteBack (ksRest s ksStart) s
  | .ernd kidx => encRound kidx s
  | .drnd kidx => decRound kidx s
  | .enc => storeBlock .encrypt (encRounds s.r 0 (loadBlock false s))
  | .dec => storeBlock .decrypt (decRounds s.r (2 * s.r - 1) (loadBlock true s))

theorem exec_eq_issue (i : Instr) (s : State) : exec i s = issue (check i s) (commandEffect i) s := by
  cases i <;> rfl

/-- A command's effect writes datapath registers, RK, LASTRULE and SCHED_VALID only. -/
theorem commandEffect_frame (i : Instr) (s : State) :
    commandEffect i s = { s with
      res := (commandEffect i s).res, lastRule := (commandEffect i s).lastRule, car := (commandEffect i s).car
      blk0 := (commandEffect i s).blk0, blk1 := (commandEffect i s).blk1, blk2 := (commandEffect i s).blk2
      blk3 := (commandEffect i s).blk3, ha := (commandEffect i s).ha, hb := (commandEffect i s).hb
      rk := (commandEffect i s).rk, schedValid := (commandEffect i s).schedValid } := by
  cases i with
  | mload h rev => cases h <;> rfl
  | mstore h ord => cases h <;> cases ord <;> rfl
  | mxs h kidx => cases h <;> rfl
  | mxp h kidx => cases h <;> rfl
  | mstep h rule => cases h <;> rfl
  | mmorph h => cases h <;> rfl
  | enc => simp only [commandEffect]; rw [encRounds_frame]; rfl
  | dec => simp only [commandEffect]; rw [decRounds_frame]; rfl
  | _ => rfl

@[simp] theorem commandEffect_err (i : Instr) (s : State) : (commandEffect i s).err = s.err := by
  rw [commandEffect_frame]

@[simp] theorem commandEffect_params (i : Instr) (s : State) : (commandEffect i s).params = s.params := by
  rw [commandEffect_frame]

/-- Only KSRUN writes SCHED_VALID (`10_state.md` R48). -/
theorem commandEffect_schedValid {i : Instr} (hi : i ≠ .ksrun) (s : State) :
    (commandEffect i s).schedValid = s.schedValid := by
  cases i with
  | ksrun => exact absurd rfl hi
  | mload h rev => exact State.setHalf_schedValid s h _
  | mstore h ord => cases ord <;> exact State.setPair_schedValid s h _ _
  | mxs h kidx => exact State.setHalf_schedValid s h _
  | mxp h kidx => exact State.setHalf_schedValid s h _
  | mstep h rule => exact State.setHalf_schedValid s h _
  | mmorph h => exact State.setHalf_schedValid s h _
  | enc => simp only [commandEffect]; rw [encRounds_frame]; rfl
  | dec => simp only [commandEffect]; rw [decRounds_frame]; rfl
  | _ => rfl

/-! ## Commands at command level, raw writes to CMD, completion -/

/-- A command-level event is refused or dropped with an error code, or is a command carried out. -/
theorem commandEvent_cases {v : Word} {s t : State} (h : commandEvent v s = .next t) :
    (∃ code, t = (s.respond .okWrite).recordErr code) ∨
      ∃ i, decode v = .ok i ∧ s.running = none ∧ check i (s.respond .okWrite) = none ∧
        t = (commandEffect i (s.respond .okWrite)).complete := by
  cases hd : decode v with
  | error e =>
    simp only [commandEvent, hd, Host.Outcome.next.injEq] at h
    exact .inl ⟨_, h.symm⟩
  | ok i =>
    simp only [commandEvent, hd, exec_eq_issue] at h
    obtain ⟨-, rfl⟩ | ⟨code, -, -, rfl⟩ | ⟨hr, hc, rfl⟩ := issue_cases h
    · exact .inl ⟨.busy, rfl⟩
    · exact .inl ⟨code, rfl⟩
    · exact .inr ⟨i, rfl, hr, hc, rfl⟩

/-- A value written to CMD while idle is refused with an error code, or is a command accepted. -/
theorem issueWord_cases (v : Word) (s : State) :
    (∃ code, issueWord v s = s.recordErr code) ∨
      ∃ i, decode v = .ok i ∧ check i s = none ∧ issueWord v s = accept i s := by
  cases hd : decode v with
  | error e => exact .inl ⟨_, by rw [issueWord, hd]⟩
  | ok i =>
    cases hc : check i s with
    | some code => exact .inl ⟨code, by simp only [issueWord, hd, hc]⟩
    | none => exact .inr ⟨i, rfl, hc, by simp only [issueWord, hd, hc]⟩

/-- Acceptance starts the sequencer, clears DONE, and touches HA, HB and SCHED_VALID at most besides. -/
theorem accept_frame (i : Instr) (s : State) :
    accept i s = { s with
      ha := (accept i s).ha, hb := (accept i s).hb, schedValid := (accept i s).schedValid
      done := false, running := some ⟨startTask i s, latency i s⟩ } := by
  cases i <;> rfl

theorem accept_schedValid (i : Instr) (s : State) :
    (accept i s).schedValid = if i = .ksrun then false else s.schedValid := by
  cases i <;> rfl

/-- The end of a one-step command records an error or is the command carried out. -/
theorem finish_unit_cases (i : Instr) (s : State) :
    (∃ code, finish (.unit i) s = (s.setRunning none).recordErr code) ∨
      (check i s = none ∧ finish (.unit i) s = (commandEffect i (s.setRunning none)).complete) := by
  have hcheck : check i (s.setRunning none) = check i s := by cases i <;> rfl
  have hfin : finish (.unit i) s = carryOut i (s.setRunning none) := rfl
  rw [hfin, carryOut, exec_eq_issue, hcheck]
  cases hc : check i s with
  | some code => exact .inl ⟨code, by rw [issue_of_refused _ rfl]⟩
  | none => exact .inr ⟨rfl, by rw [issue_of_accepted _ rfl]⟩

/-- The end of a command writes datapath registers, RK, LASTRULE and STATUS only. -/
theorem finish_frame (task : Task) (s : State) :
    finish task s = { s with
      res := (finish task s).res, lastRule := (finish task s).lastRule, car := (finish task s).car
      blk0 := (finish task s).blk0, blk1 := (finish task s).blk1, blk2 := (finish task s).blk2
      blk3 := (finish task s).blk3, ha := (finish task s).ha, hb := (finish task s).hb
      rk := (finish task s).rk, schedValid := (finish task s).schedValid, done := (finish task s).done
      err := (finish task s).err, running := none } := by
  cases task with
  | unit i =>
    obtain ⟨code, h⟩ | ⟨-, h⟩ := finish_unit_cases i s <;> rw [h]
    · rfl
    · rw [commandEffect_frame]; rfl
  | enc rnd k => simp only [finish]; rw [encRounds_frame]; rfl
  | dec rnd k => simp only [finish]; rw [decRounds_frame]; rfl
  | ksrun q => rfl

/-- The end of a command changes no error that is recorded (`10_state.md` R51). -/
theorem finish_err (task : Task) {s : State} (h : s.err ≠ .none) : (finish task s).err = s.err := by
  cases task with
  | unit i => obtain ⟨code, hf⟩ | ⟨-, hf⟩ := finish_unit_cases i s <;> simp [hf, h]
  | enc rnd k => simp only [finish]; rw [encRounds_frame]; rfl
  | dec rnd k => simp only [finish]; rw [decRounds_frame]; rfl
  | ksrun q => rfl

/-- The end of a command sets SCHED_VALID only if the command is KSRUN, and then sets DONE (`10_state.md` R48). -/
theorem finish_schedValid {task : Task} {s : State} (h : s.schedValid = false)
    (hf : (finish task s).schedValid = true) : task.op = .ksrun ∧ (finish task s).done = true := by
  cases task with
  | unit i =>
    obtain ⟨code, hu⟩ | ⟨-, hu⟩ := finish_unit_cases i s
    · simp [hu, h] at hf
    · rw [hu] at hf ⊢
      by_cases hi : i = .ksrun
      · exact ⟨hi, rfl⟩
      · simp [commandEffect_schedValid hi, h] at hf
  | enc rnd k =>
    simp only [finish] at hf
    rw [encRounds_frame] at hf
    exact absurd (h.symm.trans hf) Bool.false_ne_true
  | dec rnd k =>
    simp only [finish] at hf
    rw [decRounds_frame] at hf
    exact absurd (h.symm.trans hf) Bool.false_ne_true
  | ksrun q => exact ⟨rfl, rfl⟩

/-! ## The clock edge -/

/-- At the last edge of a command the sequencer finishes it. -/
theorem clockEdge_of_finish {s : State} {q : Running} (h : s.running = some q) (hl : q.left ≤ 1) :
    clockEdge s = finish q.task s := by
  simp [clockEdge, h, hl]

/-- At an edge that leaves cycles the sequencer advances the command. -/
theorem clockEdge_of_advance {s : State} {q : Running} (h : s.running = some q) (hl : ¬ q.left ≤ 1) :
    clockEdge s = advance q.task (q.left - 1) s := by
  simp [clockEdge, h, hl]

/-- The sequencer's part of an edge leaves the parameters, CTRL, CFG, KEYLEN, KEY and the port's fields. -/
theorem clockEdge_frame (s : State) :
    clockEdge s = { s with
      res := (clockEdge s).res, lastRule := (clockEdge s).lastRule, car := (clockEdge s).car
      blk0 := (clockEdge s).blk0, blk1 := (clockEdge s).blk1, blk2 := (clockEdge s).blk2
      blk3 := (clockEdge s).blk3, ha := (clockEdge s).ha, hb := (clockEdge s).hb
      rk := (clockEdge s).rk, schedValid := (clockEdge s).schedValid, done := (clockEdge s).done
      err := (clockEdge s).err, running := (clockEdge s).running } := by
  cases hr : s.running with
  | none => rw [clockEdge_idle hr]
  | some q =>
    by_cases hl : q.left ≤ 1
    · rw [clockEdge_of_finish hr hl, finish_frame]
    · obtain ⟨task', -, g, g', rule, h⟩ := clockEdge_of_running hr (by omega)
      rw [h]

@[simp] theorem clockEdge_params (s : State) : (clockEdge s).params = s.params := by rw [clockEdge_frame]

/-- No clock edge changes an error that is recorded. -/
theorem clockEdge_err {s : State} (h : s.err ≠ .none) : (clockEdge s).err = s.err := by
  cases hr : s.running with
  | none => rw [clockEdge_idle hr]
  | some q =>
    by_cases hl : q.left ≤ 1
    · rw [clockEdge_of_finish hr hl, finish_err q.task h]
    · obtain ⟨task', -, g, g', rule, he⟩ := clockEdge_of_running hr (by omega)
      rw [he]

/-- A clock edge sets SCHED_VALID only by completing a KSRUN. -/
theorem clockEdge_schedValid {s : State} (h : s.schedValid = false) (hs : (clockEdge s).schedValid = true) :
    ∃ q, s.running = some q ∧ q.task.op = .ksrun ∧ (clockEdge s).busy = false ∧ (clockEdge s).done = true := by
  cases hr : s.running with
  | none => exact absurd (hs.symm.trans ((congrArg _ (clockEdge_idle hr)).trans h)) (by simp)
  | some q =>
    by_cases hl : q.left ≤ 1
    · rw [clockEdge_of_finish hr hl] at hs ⊢
      obtain ⟨hop, hdone⟩ := finish_schedValid h hs
      exact ⟨q, rfl, hop, (busy_false_iff _).2 (finish_running q.task s), hdone⟩
    · obtain ⟨task', -, g, g', rule, he⟩ := clockEdge_of_running hr (by omega)
      rw [he] at hs
      exact absurd (h.symm.trans hs) Bool.false_ne_true

end Sys2Proof.Machine
end

section
/-! Laws of the host port: the address map, reads and writes of one register, accesses as steps. -/

namespace Sys2Proof.Machine

/-! ## The address map -/

theorem kmaxTable_le (width : Width) : kmaxTable width ≤ 128 := by cases width <;> decide

/-- Below both RAM windows the map has one register per row (`20_memory.md` R75). -/
theorem regAt_of_lt (p : Params) {addr : BitVec 12} (h : addr.toNat < 0x400) :
    regAt p addr = (fixedMap.lookup addr.toNat).getD .reserved := by
  simp only [regAt, show ¬ 0x800 ≤ addr.toNat by omega, show ¬ 0x400 ≤ addr.toNat by omega, if_false]

/-- An offset is reserved, an existing RAM entry, or a row of the map with one register (`20_memory.md` R75, R77). -/
theorem regAt_cases (p : Params) (addr : BitVec 12) :
    regAt p addr = .reserved ∨ (∃ i, i < rkSize p ∧ regAt p addr = .rk i) ∨
      (∃ j, j < kmax p ∧ regAt p addr = .key j) ∨ (addr.toNat, regAt p addr) ∈ fixedMap := by
  by_cases hrk : 0x800 ≤ addr.toNat
  · by_cases hi : (addr.toNat - 0x800) / 8 < rkSize p
    · exact .inr (.inl ⟨_, hi, by simp only [regAt, hrk, hi, if_true]⟩)
    · exact .inl (by simp only [regAt, hrk, hi, if_true, if_false])
  · by_cases hkey : 0x400 ≤ addr.toNat
    · by_cases hj : (addr.toNat - 0x400) / 8 < kmax p
      · exact .inr (.inr (.inl ⟨_, hj, by simp only [regAt, hrk, hkey, hj, if_true, if_false]⟩))
      · exact .inl (by simp only [regAt, hrk, hkey, hj, if_true, if_false])
    · rw [regAt_of_lt p (Nat.not_le.1 hkey)]
      cases hl : fixedMap.lookup addr.toNat with
      | none => exact .inl rfl
      | some r =>
        obtain ⟨l₁, l₂, hmap, -⟩ := List.lookup_eq_some_iff.1 hl
        exact .inr (.inr (.inr (hmap ▸ List.mem_append_right _ List.mem_cons_self)))

/-- Only offset 0x010 is STATUS. -/
theorem addr_of_regAt_status {p : Params} {addr : BitVec 12} (h : regAt p addr = .status) : addr = 0x010 := by
  obtain he | ⟨i, -, he⟩ | ⟨j, -, he⟩ | hmem := regAt_cases p addr
  · cases he.symm.trans h
  · cases he.symm.trans h
  · cases he.symm.trans h
  · rw [h] at hmem
    exact BitVec.eq_of_toNat_eq (by simpa [fixedMap] using hmem)

/-- A register that exists: a RAM entry below its RAM's size, or any other (`20_memory.md` R77). -/
def Reg.InMap (p : Params) : Reg → Prop
  | .key j => j < kmax p
  | .rk i => i < rkSize p
  | _ => True

theorem regAt_inMap (p : Params) (addr : BitVec 12) : (regAt p addr).InMap p := by
  obtain he | ⟨i, hi, he⟩ | ⟨j, hj, he⟩ | hmem := regAt_cases p addr
  · rw [he]; trivial
  · rwa [he]
  · rwa [he]
  · have hfixed : ∀ e ∈ fixedMap, e.2.InMap p := by simp [fixedMap, Reg.InMap]
    exact hfixed _ hmem

/-- The window of KEY (`20_memory.md` R75). -/
theorem regAt_key_window {p : Params} {addr : BitVec 12} (h : 0x400 ≤ addr.toNat)
    (hlt : addr.toNat < 0x400 + 8 * kmaxTable p.width) : regAt p addr = .key ((addr.toNat - 0x400) / 8) := by
  have hmax := kmaxTable_le p.width
  have hj : (addr.toNat - 0x400) / 8 < kmax p := by rw [kmax_eq]; omega
  have hrk : ¬ 0x800 ≤ addr.toNat := by omega
  simp only [regAt, hrk, h, hj, if_true, if_false]

/-- The window of RK (`20_memory.md` R75). -/
theorem regAt_rk_window {p : Params} {addr : BitVec 12} (h : 0x800 ≤ addr.toNat)
    (hlt : addr.toNat < 0x800 + 16 * p.rmax) : regAt p addr = .rk ((addr.toNat - 0x800) / 8) := by
  have hi : (addr.toNat - 0x800) / 8 < rkSize p := by rw [rkSize]; omega
  simp only [regAt, h, hi, if_true]

/-- The W-bit registers and RAM entries that a host write sets (`10_state.md` R40 to R46). -/
def Reg.isData : Reg → Bool
  | .car | .blk0 | .blk1 | .blk2 | .blk3 | .haState | .haPrev | .hbState | .hbPrev | .key _ | .rk _ => true
  | _ => false

/-- The offsets of the datapath registers and of the existing RAM entries. -/
theorem regAt_isData {p : Params} {addr : BitVec 12} (hal : addr.toNat % 8 = 0)
    (h : addr = 0x050 ∨ 0x080 ≤ addr.toNat ∧ addr.toNat < 0x0C0 ∨
      0x400 ≤ addr.toNat ∧ addr.toNat < 0x400 + 8 * kmaxTable p.width ∨
      0x800 ≤ addr.toNat ∧ addr.toNat < 0x800 + 16 * p.rmax) : (regAt p addr).isData = true := by
  rcases h with rfl | ⟨hlo, hhi⟩ | ⟨hlo, hhi⟩ | ⟨hlo, hhi⟩
  · rfl
  · have hk : addr.toNat = 8 * (addr.toNat / 8) := by omega
    have hrow : ∀ k < 8, ((fixedMap.lookup (8 * (16 + k))).getD .reserved).isData = true := by decide
    have := hrow (addr.toNat / 8 - 16) (by omega)
    rwa [regAt_of_lt p (by omega), hk, show addr.toNat / 8 = 16 + (addr.toNat / 8 - 16) by omega]
  · rw [regAt_key_window hlo hhi]; rfl
  · rw [regAt_rk_window hlo hhi]; rfl

/-! ## Reads and writes of one register -/

/-- A write that the hazard rule drops or one that is performed (`70_reset_and_hazards.md` R270). -/
theorem writeAccess_cases (r : Reg) (v : Word) (s : State) :
    (s.running ≠ none ∧ r ≠ .ctrl ∧ r ≠ .status ∧ writeAccess r v s = s.recordErr .busy) ∨
      ((s.running = none ∨ r = .ctrl ∨ r = .status) ∧ writeAccess r v s = writeReg r v s) := by
  by_cases hr : s.running = none
  · exact .inr ⟨.inl hr, by simp [writeAccess, (busy_false_iff s).2 hr]⟩
  · by_cases hreg : r = .ctrl ∨ r = .status
    · exact .inr ⟨.inr hreg, by simp [writeAccess, hreg]⟩
    · have hreg' := not_or.1 hreg
      exact .inl ⟨hr, hreg'.1, hreg'.2, by simp [writeAccess, (busy_iff s).2 hr, hreg]⟩

theorem writeAccess_of_idle {s : State} (h : s.running = none) (r : Reg) (v : Word) :
    writeAccess r v s = writeReg r v s := by
  simp [writeAccess, (busy_false_iff s).2 h]

theorem legalAccess_of_aligned {addr : BitVec 12} (h : addr.toNat % 8 = 0) : legalAccess addr 8 = true := by
  simp [legalAccess, h]

/-- An access is a read or an illegal one, which touch the port's fields only, or a legal write. -/
theorem performAccess_cases (a : Access) (s : State) :
    (∃ x n, performAccess a s = { s with response := some x, freeReads := n }) ∨
      ∃ addr v, a = .write addr 8 v ∧ addr.toNat % 8 = 0 ∧
        performAccess a s = (writeAccess (regAt s.params addr) v s).respond .okWrite := by
  cases a with
  | read addr size =>
    left
    rw [performAccess]
    split
    · rw [readAccess]
      split
      · exact ⟨_, _, rfl⟩
      · exact ⟨_, _, rfl⟩
    · exact ⟨_, _, rfl⟩
  | write addr size v =>
    by_cases hl : legalAccess addr size = true
    · obtain ⟨rfl, hal⟩ : size = 8 ∧ addr.toNat % 8 = 0 := by simpa [legalAccess] using hl
      exact .inr ⟨addr, v, rfl, hal, by rw [performAccess, if_pos hl]⟩
    · exact .inl ⟨.error, s.freeReads, by rw [performAccess, if_neg hl]; rfl⟩

/-- The port's own fields are read by no register. -/
@[simp] theorem readReg_afterInput (r : Reg) (s : State) (rest : List Event) :
    readReg r (s.afterInput rest) = readReg r s := by cases r <;> rfl

@[simp] theorem readReg_respond (r : Reg) (s : State) (a : Response) : readReg r (s.respond a) = readReg r s := by
  cases r <;> rfl

theorem inFlight_of_idle {s : State} (h : s.running = none) (r : Reg) : inFlight r s = false := by
  simp [inFlight, h]

/-- A register no command writes is never in flight. -/
theorem inFlight_of_not_mem {r : Reg} (h : ∀ i n, r ∉ writeSet i n) (s : State) : inFlight r s = false := by
  unfold inFlight
  split
  · rfl
  · exact decide_eq_false (h _ _)

/-- Every command's write set is of datapath registers, RES, LASTRULE and RK (`30_encoding.md` R116). -/
theorem not_mem_writeSet {r : Reg} (hd : r.isData = false) (hres : r ≠ .res) (hl : r ≠ .lastRule) (i : Instr)
    (n : Nat) : r ∉ writeSet i n := by
  intro hr
  have hset : ∀ x ∈ writeSet i n, x.isData = true ∨ x = .res ∨ x = .lastRule := by
    cases i with
    | mload h rev => cases h <;> simp [writeSet, halfSet, Reg.isData]
    | mstore h ord => cases h <;> simp [writeSet, Reg.isData]
    | mxs h kidx => cases h <;> simp [writeSet, Reg.isData]
    | mxp h kidx => cases h <;> simp [writeSet, Reg.isData]
    | mstep h rule => cases h <;> simp [writeSet, halfSet, Reg.isData]
    | mmorph h => cases h <;> simp [writeSet, halfSet, Reg.isData]
    | ksrun =>
      intro x hx
      rcases List.mem_append.1 hx with hx | hx
      · obtain ⟨e, -, rfl⟩ := List.mem_map.1 hx
        exact .inl rfl
      · exact .inr (.inr (List.mem_singleton.1 hx))
    | _ => simp [writeSet, halfSet, Reg.isData]
  rcases hset r hr with h | h | h
  · exact Bool.false_ne_true (hd.symm.trans h)
  · exact hres h
  · exact hl h

/-- A legal read of a register that is not in flight. -/
theorem step_of_read {s : State} {addr : BitVec 12} {rest : List Event}
    (h : s.inputs = .access (.read addr 8) :: rest) (hal : addr.toNat % 8 = 0)
    (hfl : inFlight (regAt s.params addr) (clockEdge s) = false) :
    step s = .next ((clockEdge s).answered rest (.okRead (readReg (regAt s.params addr) (clockEdge s))) none) := by
  have hfl' : inFlight (regAt s.params addr) ((clockEdge s).afterInput rest) = false := hfl
  rw [step_of_access h, performAccess, if_pos (legalAccess_of_aligned hal), State.afterInput_params, clockEdge_params,
    readAccess, hfl', readReg_afterInput]
  rfl

/-- A legal write, on the state the sequencer reaches at that edge. -/
theorem step_of_write {s : State} {addr : BitVec 12} {v : Word} {rest : List Event}
    (h : s.inputs = .access (.write addr 8 v) :: rest) (hal : addr.toNat % 8 = 0) :
    step s = .next
      ((writeAccess (regAt s.params addr) v ((clockEdge s).afterInput rest)).respond .okWrite) := by
  rw [step_of_access h, performAccess, if_pos (legalAccess_of_aligned hal), State.afterInput_params, clockEdge_params]

/-- A legal write to an idle block. -/
theorem step_of_idle_write {s : State} {addr : BitVec 12} {v : Word} {rest : List Event} (hr : s.running = none)
    (h : s.inputs = .access (.write addr 8 v) :: rest) (hal : addr.toNat % 8 = 0) :
    step s = .next ((writeReg (regAt s.params addr) v (s.afterInput rest)).respond .okWrite) := by
  rw [step_of_write h hal, clockEdge_idle hr, writeAccess_of_idle (show (s.afterInput rest).running = none from hr)]

/-- Only a write to CMD starts a command. -/
theorem writeReg_running {r : Reg} (h : r ≠ .cmd) (v : Word) (s : State) : (writeReg r v s).running = s.running := by
  cases r with
  | cmd => exact absurd rfl h
  | _ => rfl

theorem writeReg_params {r : Reg} (h : r ≠ .cmd) (v : Word) (s : State) : (writeReg r v s).params = s.params := by
  cases r with
  | cmd => exact absurd rfl h
  | _ => rfl

theorem writeReg_inputs {r : Reg} (h : r ≠ .cmd) (v : Word) (s : State) : (writeReg r v s).inputs = s.inputs := by
  cases r with
  | cmd => exact absurd rfl h
  | _ => rfl

theorem Reg.ne_cmd_of_isData {r : Reg} (h : r.isData = true) : r ≠ .cmd := by
  rintro rfl
  cases h

/-- Read back, a datapath register or RAM entry gives the written value's low W bits (`10_state.md` R44). -/
theorem readReg_writeReg_same {r : Reg} (h : r.isData = true) (v : Word) (s : State) :
    readReg r (writeReg r v s) = trunc s.w v := by
  cases r with
  | key j => simp [readReg, writeReg, State.keyAt, Memory.find_insert]
  | rk i => simp [readReg, writeReg, State.rkAt, Memory.find_insert]
  | car | blk0 | blk1 | blk2 | blk3 | haState | haPrev | hbState | hbPrev => rfl
  | _ => cases h

/-- A write to a datapath register or RAM entry leaves every other register, STATUS apart. -/
theorem readReg_writeReg_other {r r' : Reg} (h : r.isData = true) (hne : r' ≠ r) (hs : r' ≠ .status) (v : Word)
    (s : State) : readReg r' (writeReg r v s) = readReg r' s := by
  cases r with
  | key j =>
    cases r' with
    | key j' =>
      have hj : j' ≠ j := fun hj => hne (congrArg Reg.key hj)
      simp [readReg, writeReg, State.keyAt, Memory.find_insert, hj, State.ramInitial]
    | status => exact absurd rfl hs
    | _ => rfl
  | rk i =>
    cases r' with
    | rk i' =>
      have hi : i' ≠ i := fun hi => hne (congrArg Reg.rk hi)
      simp [readReg, writeReg, State.rkAt, Memory.find_insert, hi, State.ramInitial]
    | status => exact absurd rfl hs
    | _ => rfl
  | car | blk0 | blk1 | blk2 | blk3 | haState | haPrev | hbState | hbPrev =>
    cases r'
    any_goals rfl
    exact absurd rfl hne
  | _ => cases h

/-- A write changes no error that is recorded, unless it is to STATUS (`10_state.md` R51). -/
theorem writeReg_err {r : Reg} (hr : r ≠ .status) (v : Word) {s : State} (h : s.err ≠ .none) :
    (writeReg r v s).err = s.err := by
  cases r with
  | status => exact absurd rfl hr
  | cmd =>
    obtain ⟨code, he⟩ | ⟨i, -, -, he⟩ := issueWord_cases v s
    · simp [writeReg, he, h]
    · rw [writeReg, he, accept_frame]
  | _ => rfl

theorem writeAccess_err {r : Reg} (hr : r ≠ .status) (v : Word) {s : State} (h : s.err ≠ .none) :
    (writeAccess r v s).err = s.err := by
  obtain ⟨-, -, -, he⟩ | ⟨-, he⟩ := writeAccess_cases r v s <;> rw [he]
  · simp [h]
  · exact writeReg_err hr v h

/-- STATUS is written busy or not (`70_reset_and_hazards.md` R270). -/
theorem writeAccess_status (v : Word) (s : State) : writeAccess .status v s = s.writeStatus v := by
  obtain ⟨-, -, hne, -⟩ | ⟨-, he⟩ := writeAccess_cases .status v s
  · exact absurd rfl hne
  · exact he

/-- A write to STATUS with ERRCLR, bit 8, clears ERR, and one without leaves it (`10_state.md` R33). -/
theorem writeAccess_status_err (v : Word) (s : State) :
    (writeAccess .status v s).err = if v.getLsbD 8 then .none else s.err := by
  rw [writeAccess_status, State.writeStatus_err]

/-- The one access that changes a recorded error is a STATUS write with ERRCLR. -/
theorem performAccess_err {a : Access} {s : State} (h : s.err ≠ .none) (hne : (performAccess a s).err ≠ s.err) :
    ∃ v : Word, a = .write 0x010 8 v ∧ v.getLsbD 8 = true ∧ (performAccess a s).err = .none := by
  obtain ⟨x, n, he⟩ | ⟨addr, v, rfl, -, he⟩ := performAccess_cases a s <;> rw [he] at hne ⊢
  · exact absurd rfl hne
  · rw [State.respond_err] at hne ⊢
    by_cases hreg : regAt s.params addr = .status
    · obtain rfl := addr_of_regAt_status hreg
      rw [hreg, writeAccess_status_err] at hne ⊢
      by_cases hbit : v.getLsbD 8 = true
      · exact ⟨v, rfl, hbit, if_pos hbit⟩
      · exact absurd (if_neg hbit) hne
    · exact absurd (writeAccess_err hreg v h) hne

/-- No write sets SCHED_VALID (`10_state.md` R48). -/
theorem writeReg_schedValid (r : Reg) (v : Word) {s : State} (h : s.schedValid = false) :
    (writeReg r v s).schedValid = false := by
  cases r with
  | cmd =>
    obtain ⟨code, he⟩ | ⟨i, -, -, he⟩ := issueWord_cases v s
    · rw [writeReg, he]; exact h
    · rw [writeReg, he, accept_schedValid, h, ite_self]
  | cfg | keylen | key _ | rk _ => rfl
  | _ => exact h

theorem performAccess_schedValid (a : Access) {s : State} (h : s.schedValid = false) :
    (performAccess a s).schedValid = false := by
  obtain ⟨x, n, he⟩ | ⟨addr, v, -, -, he⟩ := performAccess_cases a s <;> rw [he]
  · exact h
  · obtain ⟨-, -, -, hw⟩ | ⟨-, hw⟩ := writeAccess_cases (regAt s.params addr) v s <;> rw [hw]
    · exact h
    · exact writeReg_schedValid _ v h

/-! ## Reads as numbers, two steps -/

theorem steps_two {s u t : State} (hu : step s = .next u) (ht : step u = .next t) :
    steps 2 s = .next t := by
  simp only [steps, hu, ht]

theorem trunc_eq_ofNat {n : Nat} (hn : n ≤ 64) (v : Word) :
    trunc n v = BitVec.ofNat 64 (v.toNat % 2 ^ n) := by
  rw [← toNat_trunc hn, BitVec.ofNat_toNat, BitVec.setWidth_eq]

@[simp] theorem readReg_answered (r : Reg) (s : State) (rest : List Event) (a : Response) :
    readReg r (s.answered rest a none) = readReg r s := by
  cases r <;> rfl

/-! ## ID and STATUS as sums of their fields -/

/-- A field above the bits of `x` is added to it. -/
theorem toNat_or_shiftLeft {x y : Word} {i a b : Nat} (hx : x.toNat = a) (hy : y.toNat = b) (ha : a < 2 ^ i)
    (hb : b * 2 ^ i < 2 ^ 64) : (x ||| y <<< i).toNat = a + 2 ^ i * b := by
  subst hx hy
  rw [BitVec.toNat_or, BitVec.toNat_shiftLeft, Nat.shiftLeft_eq, Nat.mod_eq_of_lt hb, Nat.or_comm, Nat.mul_comm,
    ← Nat.two_pow_add_eq_or_of_lt ha, Nat.add_comm]

/-- ID as the sum of its fields (`10_state.md` R31). -/
theorem idImage_toNat (p : Params) :
    (idImage p).toNat = p.width.bits + 2 ^ 8 * p.rmax + 2 ^ 16 * kmaxTable p.width + 2 ^ 24 * 0x07 +
      2 ^ 32 * 0x4D454341 := by
  have hw := Width.bits_le p.width
  have hr : p.rmax ≤ 128 := p.rmaxPred.isLt
  have hk := kmaxTable_le p.width
  have hofNat : ∀ n < 2 ^ 32, (BitVec.ofNat 64 n).toNat = n := fun n hn => by rw [BitVec.toNat_ofNat]; omega
  have hrmax := toNat_or_shiftLeft (i := 8) (hofNat p.width.bits (by omega)) (hofNat p.rmax (by omega)) (by omega)
    (by omega)
  have hkmax := toNat_or_shiftLeft (i := 16) hrmax (hofNat (kmaxTable p.width) (by omega)) (by omega) (by omega)
  have hrev := toNat_or_shiftLeft (i := 24) hkmax (hofNat 0x07 (by omega)) (by omega) (by omega)
  rw [idImage, kmax_eq]
  exact toNat_or_shiftLeft (i := 32) hrev (hofNat 0x4D454341 (by omega)) (by omega) (by omega)

/-- STATUS as the sum of its fields (`10_state.md` R33). -/
theorem statusImage_toNat (s : State) :
    (statusImage s).toNat =
      s.busy.toNat + 2 * s.done.toNat + 4 * s.schedValid.toNat + 16 * s.err.code.toNat := by
  have hbit : ∀ b : Bool, (if b then 1#64 else 0#64).toNat = b.toNat := fun b => by cases b <;> rfl
  have hbusy : (flagAt s.busy 0).toNat = s.busy.toNat := by rw [flagAt, BitVec.shiftLeft_zero, hbit]
  have hcode : (s.err.code.setWidth 64).toNat = s.err.code.toNat := by
    rw [BitVec.toNat_setWidth]
    omega
  have h0 := Bool.toNat_le s.busy
  have h1 := Bool.toNat_le s.done
  have h2 := Bool.toNat_le s.schedValid
  have hdone := toNat_or_shiftLeft (i := 1) hbusy (hbit s.done) (by omega) (by omega)
  have hvalid := toNat_or_shiftLeft (i := 2) hdone (hbit s.schedValid) (by omega) (by omega)
  exact toNat_or_shiftLeft (i := 4) hvalid hcode (by omega) (by omega)

end Sys2Proof.Machine
end

section
/-! The invariant: every operation of the datapath gives W-bit values, every task keeps its counters in range, and so
every event keeps `State.Inv`. -/

namespace Sys2Proof.Machine

/-! ## W-bit values in the datapath -/

theorem Width.eight_le_bits (width : Width) : 8 ≤ width.bits := by cases width <;> decide

theorem State.w_le (s : State) : s.w ≤ 64 := Width.bits_le s.params.width

/-- A rule number zero-extended is a W-bit value. -/
theorem fits_rule (width : Width) (rule : Rule) : Fits width.bits (rule.setWidth 64) :=
  fits_of_lt (Width.eight_le_bits width) (by rw [BitVec.toNat_setWidth]; omega)

/-- A one-digit number is a W-bit value: RES holds a neighbourhood index or one bit. -/
theorem fits_ofNat (width : Width) {n : Nat} (h : n < 8) : Fits width.bits (BitVec.ofNat 64 n) :=
  fits_of_lt (Width.eight_le_bits width) (by rw [BitVec.toNat_ofNat]; omega)

theorem index_lt (l c r : Bool) : index l c r < 8 := by cases l <;> cases c <;> cases r <;> decide

theorem fits_ksP (width : Width) : Fits width.bits (ksP width) := by cases width <;> (unfold Fits; decide)

theorem fits_ksPass {w : Nat} (hw : w ≤ 64) (k x : Word) : Fits w (ksPass w k x) := fits_ca hw _ _ _

theorem fits_seed {w : Nat} {x y : Word} (hx : Fits w x) (hy : Fits w y) (rev : Bool) : (seed x y rev).Fits w := by
  cases rev
  · exact ⟨hy, hx⟩
  · exact ⟨hx, hy⟩

theorem HalfRegs.Fits.xorState {w : Nat} {g : HalfRegs} {x : Word} (h : g.Fits w) (hx : Machine.Fits w x) :
    (g.xorState x).Fits w := ⟨h.1.xor hx, h.2⟩

theorem HalfRegs.Fits.xorPrev {w : Nat} {g : HalfRegs} {x : Word} (h : g.Fits w) (hx : Machine.Fits w x) :
    (g.xorPrev x).Fits w := ⟨h.1, h.2.xor hx⟩

theorem HalfRegs.Fits.mecaStep {w : Nat} (hw : w ≤ 64) {g : HalfRegs} (h : g.Fits w) (rule : Rule) :
    (mecaStep w g rule).Fits w := ⟨h.2.xor (fits_ca hw _ _ _), h.1⟩

theorem HalfRegs.Fits.morph {w : Nat} (hw : w ≤ 64) {g : HalfRegs} (h : g.Fits w) : (morph w g).Fits w :=
  h.mecaStep hw _

/-! ## RAMs of W-bit values -/

theorem Memory.mem_of_find {m : Memory} {a : Nat} {v : Word} (h : m.find a = some v) : (a, v) ∈ m := by
  induction m with
  | nil => cases h
  | cons e m ih =>
    obtain ⟨b, u⟩ := e
    rw [Memory.find] at h
    split_ifs at h with hab
    · cases h
      subst hab
      exact List.mem_cons_self
    · exact List.mem_cons_of_mem _ (ih h)

theorem Memory.Ok.fits_find {w size : Nat} {m : Memory} (h : m.Ok w size) {v : Word} (hv : Fits w v) (a : Nat) :
    Fits w ((m.find a).getD v) := by
  cases hf : m.find a with
  | none => exact hv
  | some u => exact (h.2 _ (Memory.mem_of_find hf)).2

theorem Memory.Ok.insert {w size : Nat} {m : Memory} (h : m.Ok w size) {a : Nat} (ha : a < size) {v : Word}
    (hv : Fits w v) : (m.insert a v).Ok w size := by
  refine ⟨Memory.wf_insert a v h.1, fun e he => ?_⟩
  rcases Memory.mem_insert he with rfl | he
  · exact ⟨ha, hv⟩
  · exact h.2 e he

theorem Memory.Ok.insertFrom {w size : Nat} {m : Memory} (h : m.Ok w size) {a : Nat} {vs : List Word}
    (hlen : a + vs.length ≤ size) (hvs : ∀ v ∈ vs, Fits w v) : (Memory.insertFrom a vs m).Ok w size := by
  refine ⟨Memory.wf_insertFrom vs a h.1, fun e he => ?_⟩
  rcases Memory.mem_insertFrom he with ⟨-, hlt, hmem⟩ | he
  · exact ⟨by omega, hvs _ hmem⟩
  · exact h.2 e he

namespace State.DataOk

variable {s : State}

/-- The control state is no part of the data. -/
theorem of_control {t : State} (h : s.DataOk)
    (ht : t = { s with
      ieDone := t.ieDone, ieErr := t.ieErr, done := t.done, schedValid := t.schedValid, err := t.err
      rounds := t.rounds, keylen := t.keylen, lastRule := t.lastRule, running := t.running, inputs := t.inputs
      response := t.response, ramEpoch := t.ramEpoch, freeReads := t.freeReads }) : t.DataOk := by
  rw [ht]
  exact ⟨h.res, h.car, h.blk0, h.blk1, h.blk2, h.blk3, h.ha, h.hb, h.key, h.rk⟩

theorem half (h : s.DataOk) (hf : Half) : (s.half hf).Fits s.w := by
  cases hf
  · exact h.ha
  · exact h.hb

theorem pair (h : s.DataOk) (hf : Half) : Fits s.w (s.pair hf).1 ∧ Fits s.w (s.pair hf).2 := by
  cases hf
  · exact ⟨h.blk0, h.blk1⟩
  · exact ⟨h.blk2, h.blk3⟩

theorem rkAt (h : s.DataOk) (i : Nat) : Fits s.w (s.rkAt i) := h.rk.fits_find (fits_trunc _ _) i

theorem setRes (h : s.DataOk) {v : Word} (hv : Fits s.w v) : (s.setRes v).DataOk :=
  ⟨hv, h.car, h.blk0, h.blk1, h.blk2, h.blk3, h.ha, h.hb, h.key, h.rk⟩

theorem setCar (h : s.DataOk) {v : Word} (hv : Fits s.w v) : (s.setCar v).DataOk :=
  ⟨h.res, hv, h.blk0, h.blk1, h.blk2, h.blk3, h.ha, h.hb, h.key, h.rk⟩

theorem setHalf (h : s.DataOk) (hf : Half) {g : HalfRegs} (hg : g.Fits s.w) : (s.setHalf hf g).DataOk := by
  cases hf
  · exact ⟨h.res, h.car, h.blk0, h.blk1, h.blk2, h.blk3, hg, h.hb, h.key, h.rk⟩
  · exact ⟨h.res, h.car, h.blk0, h.blk1, h.blk2, h.blk3, h.ha, hg, h.key, h.rk⟩

theorem setPair (h : s.DataOk) (hf : Half) {x y : Word} (hx : Fits s.w x) (hy : Fits s.w y) :
    (s.setPair hf x y).DataOk := by
  cases hf
  · exact ⟨h.res, h.car, hx, hy, h.blk2, h.blk3, h.ha, h.hb, h.key, h.rk⟩
  · exact ⟨h.res, h.car, h.blk0, h.blk1, hx, hy, h.ha, h.hb, h.key, h.rk⟩

theorem setKey (h : s.DataOk) {m : Memory} (hm : m.Ok s.w (kmax s.params)) : (s.setKey m).DataOk :=
  ⟨h.res, h.car, h.blk0, h.blk1, h.blk2, h.blk3, h.ha, h.hb, hm, h.rk⟩

theorem setRk (h : s.DataOk) {m : Memory} (hm : m.Ok s.w (rkSize s.params)) : (s.setRk m).DataOk :=
  ⟨h.res, h.car, h.blk0, h.blk1, h.blk2, h.blk3, h.ha, h.hb, h.key, hm⟩

theorem setLastRule (h : s.DataOk) (rule : Rule) : (s.setLastRule rule).DataOk := h.of_control rfl

theorem complete (h : s.DataOk) : s.complete.DataOk := h.of_control rfl

/-! ## The data after a command's work -/

theorem loadHalf (h : s.DataOk) (hf : Half) (rev : Bool) : (loadHalf hf rev s).DataOk :=
  h.setHalf hf (fits_seed (h.pair hf).1 (h.pair hf).2 rev)

theorem storeHalf (h : s.DataOk) (hf : Half) (ord : StoreOrder) : (storeHalf hf ord s).DataOk := by
  cases ord
  · exact h.setPair hf (h.half hf).2 (h.half hf).1
  · exact h.setPair hf (h.half hf).1 (h.half hf).2

theorem loadBlock (h : s.DataOk) (rev : Bool) : (loadBlock rev s).DataOk := (h.loadHalf .A rev).loadHalf .B rev

theorem storeBlock (h : s.DataOk) (ord : StoreOrder) : (storeBlock ord s).DataOk :=
  (h.storeHalf .A ord).storeHalf .B ord

theorem encRound (h : s.DataOk) (k : Nat) : (encRound k s).DataOk :=
  ⟨h.res, h.car, h.blk0, h.blk1, h.blk2, h.blk3, (h.ha.xorState (h.rkAt k)).morph s.w_le,
    (h.hb.xorState (h.rkAt (k + 1))).morph s.w_le, h.key, h.rk⟩

theorem decRound (h : s.DataOk) (k : Nat) : (decRound k s).DataOk :=
  ⟨h.res, h.car, h.blk0, h.blk1, h.blk2, h.blk3, (h.ha.morph s.w_le).xorPrev (h.rkAt (k - 1)),
    (h.hb.morph s.w_le).xorPrev (h.rkAt k), h.key, h.rk⟩

theorem encRounds (h : s.DataOk) (n k : Nat) : (encRounds n k s).DataOk := by
  induction n with
  | zero => exact h
  | succ n ih => rw [encRounds_succ]; exact ih.encRound _

theorem decRounds (h : s.DataOk) (n k : Nat) : (decRounds n k s).DataOk := by
  induction n with
  | zero => exact h
  | succ n ih => rw [decRounds_succ]; exact ih.decRound _

end State.DataOk

/-! ## The checks, read backwards -/

theorem roundsCheck_eq_none_iff (s : State) : roundsCheck s = none ↔ s.RoundsLegal := by
  unfold roundsCheck State.RoundsLegal
  split_ifs with h <;> simp <;> omega

theorem keylenCheck_eq_none_iff (s : State) : keylenCheck s = none ↔ s.KeylenLegal := by
  unfold keylenCheck State.KeylenLegal
  split_ifs with h <;> simp <;> omega

theorem ksrunCheck_eq_none_iff (s : State) : ksrunCheck s = none ↔ s.RoundsLegal ∧ s.KeylenLegal := by
  rw [ksrunCheck, Option.or_eq_none_iff, roundsCheck_eq_none_iff, keylenCheck_eq_none_iff]

/-! ## The key schedule's working state -/

namespace KsWork.Ok

variable {s : State} {q : KsWork}

theorem start (hr : s.RoundsLegal) (hk : s.KeylenLegal) : ksStart.Ok s where
  fill := Nat.zero_le _
  length := rfl
  fits := fun _ hv => absurd hv List.not_mem_nil
  passes := Nat.zero_le _
  filled := fun h => absurd h (lt_irrefl 0)
  i := Nat.mul_pos two_pos hr.1
  j := hk.1

/-- A fill step while entries are left to fill. -/
theorem fillStep (h : q.Ok s) (hlt : q.fill < ksLength s) : (ksFill s q).Ok s where
  fill := hlt
  length := by rw [ksFill, ksFillStep_length, h.length]; rfl
  fits := fun v hv => by
    rcases List.mem_append.1 hv with hv | hv
    · exact h.fits v hv
    · rw [List.mem_singleton.1 hv]
      split
      · exact fits_ksP _
      · exact fits_trunc _ _
  passes := h.passes
  filled := fun ht => absurd (h.filled ht) (Nat.ne_of_lt hlt)
  i := h.i
  j := h.j

/-- A mixing pass on a filled schedule while passes are left. -/
theorem mixStep (h : q.Ok s) (hfill : q.fill = ksLength s) (hlt : q.t < ksPasses s) : (ksMix s q).Ok s where
  fill := h.fill
  length := by rw [ksMix, ksMixStep_length, h.length]; rfl
  fits := fun v hv => by
    rcases List.mem_or_eq_of_mem_set hv with hv | rfl
    · exact h.fits v hv
    · exact fits_ksPass s.w_le _ _
  passes := hlt
  filled := fun _ => hfill
  i := slotAdvance_lt _ (Nat.one_le_of_lt h.i)
  j := slotAdvance_lt _ (Nat.one_le_of_lt h.j)

theorem fillSteps (h : q.Ok s) {n : Nat} (hn : q.fill + n ≤ ksLength s) :
    ((ksFill s)^[n] q).Ok s ∧ ((ksFill s)^[n] q).fill = q.fill + n ∧ ((ksFill s)^[n] q).t = q.t := by
  induction n with
  | zero => exact ⟨h, rfl, rfl⟩
  | succ n ih =>
    obtain ⟨hok, hfill, ht⟩ := ih (by omega)
    rw [Function.iterate_succ_apply']
    exact ⟨hok.fillStep (by omega), congrArg (· + 1) hfill, ht⟩

theorem mixSteps (h : q.Ok s) (hfill : q.fill = ksLength s) {n : Nat} (hn : q.t + n ≤ ksPasses s) :
    ((ksMix s)^[n] q).Ok s ∧ ((ksMix s)^[n] q).fill = ksLength s ∧ ((ksMix s)^[n] q).t = q.t + n := by
  induction n with
  | zero => exact ⟨h, hfill, rfl⟩
  | succ n ih =>
    obtain ⟨hok, hf, ht⟩ := ih (by omega)
    rw [Function.iterate_succ_apply']
    exact ⟨hok.mixStep hf (by omega), hf, congrArg (· + 1) ht⟩

/-- The rest of the expansion, and its schedule is complete. -/
theorem rest (h : q.Ok s) : (ksRest s q).Ok s ∧ (ksRest s q).sched.length = ksLength s := by
  have hle := h.fill
  obtain ⟨hok, hfill, ht⟩ := h.fillSteps (n := ksLength s - q.fill) (by omega)
  have hpass := h.passes
  obtain ⟨hok', hfill', -⟩ := hok.mixSteps (by omega) (n := ksPasses s - q.t) (by omega)
  exact ⟨hok', hok'.length.trans hfill'⟩

/-- The working state is judged by W, RMAX, CFG and KEYLEN only. -/
theorem congr {t : State} (h : q.Ok s) (hp : t.params = s.params) (hr : t.rounds = s.rounds)
    (hk : t.keylen = s.keylen) : q.Ok t := by
  have hlen : ksLength t = ksLength s := by simp only [ksLength, State.r, hr]
  have hkk : t.k = s.k := by simp only [State.k, hk]
  have hpass : ksPasses t = ksPasses s := by simp only [ksPasses, hlen, hkk]
  have hw : t.w = s.w := by simp only [State.w, hp]
  exact ⟨hlen ▸ h.fill, h.length, hw ▸ h.fits, hpass ▸ h.passes, hlen ▸ h.filled, hlen ▸ h.i, hkk ▸ h.j⟩

end KsWork.Ok

/-- The results of an expansion with a legal R are data in range. -/
theorem State.DataOk.ksWriteBack {s : State} {q : KsWork} (h : s.DataOk) (hr : s.RoundsLegal) (hq : q.Ok s) :
    (ksWriteBack (ksRest s q) s).DataOk := by
  obtain ⟨hok, hlen⟩ := hq.rest
  have hle : 0 + (ksRest s q).sched.length ≤ rkSize s.params := by
    have := hr.2
    rw [hlen, ksLength, rkSize]
    omega
  exact ((h.setRk (h.rk.insertFrom hle hok.fits)).setLastRule _).of_control rfl

/-- An accepted command's effect leaves data in range (`10_state.md` R44). -/
theorem State.DataOk.commandEffect {s : State} {i : Instr} (h : s.DataOk) (hc : check i s = none) :
    (commandEffect i s).DataOk := by
  cases i with
  | nop => exact h
  | nbidx l c r => exact h.setRes (fits_ofNat _ (index_lt l c r))
  | rulebit rule l c r =>
    exact h.setRes (fits_ofNat _ (lt_of_le_of_lt (Bool.toNat_le _) (by decide)))
  | castep rule bnd => exact (h.setCar (fits_ca s.w_le _ _ _)).setLastRule _
  | mload hf rev => exact h.loadHalf hf rev
  | mstore hf ord => exact h.storeHalf hf ord
  | mxs hf kidx => exact h.setHalf hf ((h.half hf).xorState (h.rkAt kidx))
  | mxp hf kidx => exact h.setHalf hf ((h.half hf).xorPrev (h.rkAt kidx))
  | mstep hf rule => exact (h.setHalf hf ((h.half hf).mecaStep s.w_le rule)).setLastRule _
  | msel hf => exact (h.setRes (fits_rule _ _)).setLastRule _
  | mmorph hf => exact (h.setHalf hf ((h.half hf).morph s.w_le)).setLastRule _
  | ksrun =>
    obtain ⟨hr, hk⟩ := (ksrunCheck_eq_none_iff s).1 hc
    exact h.ksWriteBack hr (.start hr hk)
  | ernd kidx => exact h.encRound kidx
  | drnd kidx => exact h.decRound kidx
  | enc => exact ((h.loadBlock false).encRounds _ _).storeBlock _
  | dec => exact ((h.loadBlock true).decRounds _ _).storeBlock _

/-! ## Tasks -/

theorem roundsCheck_congr {s t : State} (hp : t.params = s.params) (hr : t.rounds = s.rounds) :
    roundsCheck t = roundsCheck s := by
  rw [roundsCheck, State.r, hp, hr]
  rfl

theorem keylenCheck_congr {s t : State} (hp : t.params = s.params) (hk : t.keylen = s.keylen) :
    keylenCheck t = keylenCheck s := by
  rw [keylenCheck, State.k, hp, hk]
  rfl

/-- The checks read W, RMAX, CFG and KEYLEN only. -/
theorem check_congr {s t : State} (hp : t.params = s.params) (hr : t.rounds = s.rounds) (hk : t.keylen = s.keylen)
    (i : Instr) : check i t = check i s := by
  have hR := roundsCheck_congr hp hr
  have hK := keylenCheck_congr hp hk
  cases i <;> simp only [check, kidxCheck, erndCheck, drndCheck, ksrunCheck, hp, hR, hK]

/-- A task is judged by W, RMAX, CFG, KEYLEN and SCHED_VALID only. -/
theorem Task.Ok.congr {s t : State} {task : Task} (h : task.Ok s) (hp : t.params = s.params)
    (hr : t.rounds = s.rounds) (hk : t.keylen = s.keylen) (hv : t.schedValid = s.schedValid) : task.Ok t := by
  have hcheck := check_congr hp hr hk
  have hR : t.r = s.r := by simp only [State.r, hr]
  cases task with
  | unit i => exact ⟨h.1, (hcheck i).trans h.2⟩
  | enc rnd k => exact ⟨(hcheck .enc).trans h.1, hR ▸ h.2.1, h.2.2⟩
  | dec rnd k => exact ⟨(hcheck .dec).trans h.1, hR ▸ h.2.1, hR ▸ h.2.2⟩
  | ksrun q => exact ⟨(hcheck .ksrun).trans h.1, h.2.1.congr hp hr hk, hv.trans h.2.2⟩

@[simp] theorem kidxFits_kidxField (v : Word) : kidxFits (kidxField v) = true := by
  exact decide_eq_true (v.extractLsb' 8 8).isLt

/-- What the decoder reads is well formed (`30_encoding.md` R106). -/
theorem wellFormed_of_buildInstr {op : Nat} {v : Word} {i : Instr} (h : buildInstr op v = some i) :
    i.wellFormed = true := by
  unfold buildInstr at h
  split at h <;> cases h <;> simp [Instr.wellFormed]

theorem buildInstr_of_decode {v : Word} {i : Instr} (h : decode v = .ok i) : buildInstr (opField v) v = some i := by
  unfold decode at h
  split at h
  next mask j _ hj =>
    split_ifs at h
    rw [hj, Except.ok.inj h]
  next => cases h

theorem wellFormed_of_decode {v : Word} {i : Instr} (h : decode v = .ok i) : i.wellFormed = true :=
  wellFormed_of_buildInstr (buildInstr_of_decode h)

theorem one_le_latency (i : Instr) (s : State) : 1 ≤ latency i s := by
  cases i <;> exact Nat.le_add_right 1 _

/-- A command whose checks passed starts as a task in range. -/
theorem startTask_ok {i : Instr} {s : State} (hw : i.wellFormed = true) (hc : check i s = none) :
    (startTask i s).Ok (accept i s) := by
  cases i with
  | ksrun =>
    obtain ⟨hr, hk⟩ := (ksrunCheck_eq_none_iff s).1 hc
    exact ⟨hc, (KsWork.Ok.start hr hk).congr rfl rfl rfl, rfl⟩
  | enc => exact ⟨hc, Nat.zero_le _, rfl⟩
  | dec => exact ⟨hc, Nat.zero_le _, rfl⟩
  | _ => exact ⟨hw, hc⟩

/-- Acceptance leaves data in range. -/
theorem State.DataOk.accept {s : State} (h : s.DataOk) (i : Instr) : (accept i s).DataOk := by
  cases i with
  | enc => exact (h.loadBlock false).of_control rfl
  | dec => exact (h.loadBlock true).of_control rfl
  | _ => exact h.of_control rfl

/-- The end of a task in range leaves data in range. -/
theorem State.DataOk.finish {s : State} {task : Task} (h : s.DataOk) (ht : task.Ok s) : (finish task s).DataOk := by
  cases task with
  | unit i =>
    obtain ⟨code, hf⟩ | ⟨hc, hf⟩ := finish_unit_cases i s <;> rw [hf]
    · exact h.of_control rfl
    · exact ((h.of_control rfl : (s.setRunning none).DataOk).commandEffect
        ((check_congr rfl rfl rfl i).trans hc)).complete
  | enc rnd k => exact ((h.encRounds _ _).storeBlock _).complete
  | dec rnd k => exact ((h.decRounds _ _).storeBlock _).complete
  | ksrun q =>
    obtain ⟨hc, hq, -⟩ := ht
    exact (h.ksWriteBack ((ksrunCheck_eq_none_iff s).1 hc).1 hq).complete

/-! ## The invariant -/

namespace State.Inv

variable {s t : State}

/-- With no command running the invariant is about the data only. -/
theorem of_idle (h : s.DataOk) (hr : s.running = none) : s.Inv :=
  ⟨h, fun q hq => absurd (hr.symm.trans hq) (by simp)⟩

/-- The interrupt enables, ERR and the port's fields are outside the invariant, and DONE may be cleared. -/
theorem of_flags (h : s.Inv) (hd : s.done = false → t.done = false)
    (ht : t = { s with
      ieDone := t.ieDone, ieErr := t.ieErr, done := t.done, err := t.err, inputs := t.inputs
      response := t.response, freeReads := t.freeReads }) : t.Inv := by
  rw [ht]
  refine ⟨h.data.of_control rfl, fun q hq => ?_⟩
  obtain ⟨hok, hleft, hdone⟩ := h.task q hq
  exact ⟨hok.congr rfl rfl rfl rfl, hleft, hd hdone⟩

/-- A task in range put in flight. -/
theorem of_task {task : Task} {left : Nat} (h : s.DataOk) (ht : task.Ok s) (hleft : 1 ≤ left)
    (hdone : s.done = false) : (s.setRunning (some ⟨task, left⟩)).Inv := by
  refine ⟨h.of_control rfl, fun q hq => ?_⟩
  obtain rfl : (⟨task, left⟩ : Running) = q := Option.some.inj hq
  exact ⟨ht.congr rfl rfl rfl rfl, hleft, hdone⟩

/-- One cycle of a running command that leaves cycles. -/
theorem advance {task : Task} {left : Nat} (h : s.DataOk) (ht : task.Ok s) (hleft : 1 ≤ left)
    (hdone : s.done = false) : (advance task left s).Inv := by
  cases task with
  | unit i => exact of_task h ht hleft hdone
  | enc rnd k =>
    rw [Machine.advance]
    split
    next hlt =>
      obtain ⟨hc, -, hk⟩ := ht
      have hnext : (Task.enc (rnd + 1) (k + 2)).Ok s := ⟨hc, hlt, by omega⟩
      exact of_task (h.encRound k) (hnext.congr rfl rfl rfl rfl) hleft hdone
    next => exact of_task h ht hleft hdone
  | dec rnd k =>
    rw [Machine.advance]
    split
    next hlt =>
      obtain ⟨hc, -, hk⟩ := ht
      have hnext : (Task.dec (rnd + 1) (k - 2)).Ok s := ⟨hc, hlt, by omega⟩
      exact of_task (h.decRound k) (hnext.congr rfl rfl rfl rfl) hleft hdone
    next => exact of_task h ht hleft hdone
  | ksrun work =>
    obtain ⟨hc, hq, hv⟩ := ht
    rw [Machine.advance]
    split
    next hfill => exact of_task h ⟨hc, hq.fillStep hfill, hv⟩ hleft hdone
    next hfill =>
      split
      next ht => exact of_task h ⟨hc, hq.mixStep (le_antisymm hq.fill (Nat.not_lt.1 hfill)) ht, hv⟩ hleft hdone
      next => exact of_task h ⟨hc, hq, hv⟩ hleft hdone

theorem clockEdge (h : s.Inv) : (clockEdge s).Inv := by
  cases hr : s.running with
  | none => rwa [clockEdge_idle hr]
  | some q =>
    obtain ⟨hok, -, hdone⟩ := h.task q hr
    by_cases hl : q.left ≤ 1
    · rw [clockEdge_of_finish hr hl]
      exact of_idle (h.data.finish hok) (finish_running _ _)
    · rw [clockEdge_of_advance hr hl]
      exact advance h.data hok (by omega) hdone

/-- A value written to CMD. -/
theorem issueWord (h : s.Inv) (v : Word) : (issueWord v s).Inv := by
  obtain ⟨code, he⟩ | ⟨i, hd, hc, he⟩ := issueWord_cases v s <;> rw [he]
  · exact h.of_flags id rfl
  · refine ⟨h.data.accept i, fun q hq => ?_⟩
    have hq' : q = ⟨startTask i s, latency i s⟩ := by
      rw [accept_frame] at hq
      exact (Option.some.inj hq).symm
    subst hq'
    exact ⟨startTask_ok (wellFormed_of_decode hd) hc, one_le_latency i s, by rw [accept_frame]⟩

end State.Inv

/-! ## Invariant: events -/

/-- A write to an existing register, CMD apart, leaves data in range (`10_state.md` R44). -/
theorem State.DataOk.writeReg {s : State} {r : Reg} (h : s.DataOk) (hr : r.InMap s.params) (hc : r ≠ .cmd)
    (v : Word) : (writeReg r v s).DataOk := by
  have hv : Fits s.w (trunc s.w v) := fits_trunc _ _
  cases r with
  | cmd => exact absurd rfl hc
  | car => exact h.setCar hv
  | blk0 => exact h.setPair .A hv h.blk1
  | blk1 => exact h.setPair .A h.blk0 hv
  | blk2 => exact h.setPair .B hv h.blk3
  | blk3 => exact h.setPair .B h.blk2 hv
  | haState => exact h.setHalf .A ⟨hv, h.ha.2⟩
  | haPrev => exact h.setHalf .A ⟨h.ha.1, hv⟩
  | hbState => exact h.setHalf .B ⟨hv, h.hb.2⟩
  | hbPrev => exact h.setHalf .B ⟨h.hb.1, hv⟩
  | key j => exact (h.setKey (h.key.insert hr hv)).of_control rfl
  | rk i => exact (h.setRk (h.rk.insert hr hv)).of_control rfl
  | _ => exact h.of_control rfl

/-- A write of STATUS clears DONE or leaves it. -/
theorem State.writeStatus_done_of_clear {s : State} (h : s.done = false) (v : Word) :
    (s.writeStatus v).done = false := by
  rw [State.writeStatus_done, h, ite_self]

namespace State.Inv

variable {s : State}

theorem writeAccess {r : Reg} (h : s.Inv) (hr : r.InMap s.params) (v : Word) : (writeAccess r v s).Inv := by
  obtain ⟨-, -, -, he⟩ | ⟨hidle | rfl | rfl, he⟩ := writeAccess_cases r v s <;> rw [he]
  · exact h.of_flags id rfl
  · by_cases hc : r = .cmd
    · rw [hc]; exact h.issueWord v
    · exact of_idle (h.data.writeReg hr hc v) ((writeReg_running hc v s).trans hidle)
  · exact h.of_flags id rfl
  · exact h.of_flags (fun hd => State.writeStatus_done_of_clear hd v) rfl

theorem performAccess (h : s.Inv) (a : Access) : (performAccess a s).Inv := by
  obtain ⟨x, n, he⟩ | ⟨addr, v, -, -, he⟩ := performAccess_cases a s <;> rw [he]
  · exact h.of_flags id rfl
  · exact (h.writeAccess (regAt_inMap _ _) v).of_flags id rfl

theorem commandEvent {t : State} {v : Word} (h : s.Inv) (he : commandEvent v s = .next t) : t.Inv := by
  obtain ⟨code, rfl⟩ | ⟨i, -, -, hc, rfl⟩ := commandEvent_cases he
  · exact h.of_flags id rfl
  · exact of_idle ((h.data.of_control rfl).commandEffect hc).complete rfl

theorem resetOf (p : Params) (n : Nat) : (State.resetOf p n).Inv :=
  of_idle
    ⟨fits_zero _, fits_zero _, fits_zero _, fits_zero _, fits_zero _, fits_zero _, ⟨fits_zero _, fits_zero _⟩,
      ⟨fits_zero _, fits_zero _⟩, ⟨Memory.wf_nil, fun _ he => absurd he List.not_mem_nil⟩,
      ⟨Memory.wf_nil, fun _ he => absurd he List.not_mem_nil⟩⟩ rfl

end State.Inv

end Sys2Proof.Machine
end

section
/-! The statements about the state (`10_state.md`), settled. -/

open Sys2Proof Sys2Proof.Machine

/-- Settles O58: what the sequencer, an access, a command and a reset edge each keep, joined. -/
theorem stepKeepsInvariant : Obligations.StepKeepsInvariant := by
  intro s t h hst
  have hedge : ∀ rest, ((clockEdge s).afterInput rest).Inv := fun rest => h.clockEdge.of_flags id rfl
  obtain ⟨-, rfl⟩ | ⟨a, rest, -, rfl⟩ | ⟨a, rest, -, rfl⟩ | ⟨v, rest, -, hv⟩ := step_cases hst
  · exact hedge _
  · exact (hedge rest).performAccess a
  · exact (State.Inv.resetOf s.params (s.ramEpoch + 1)).of_flags id rfl
  · exact (hedge rest).commandEvent hv

/-- Settles O59: every register is 0 and both RAMs are unwritten. -/
theorem resetMeetsInvariant : Obligations.ResetMeetsInvariant :=
  ⟨State.Inv.resetOf _ _, State.Inv.resetOf⟩

/-- Settles O9: an access changes a recorded error only by a STATUS write, and so only by clearing it. -/
theorem recordedErrorIsSticky : Obligations.RecordedErrorIsSticky := by
  intro s t hst hs ht
  have hedge : ∀ rest, ((clockEdge s).afterInput rest).err = s.err := fun _ => clockEdge_err hs
  obtain ⟨-, rfl⟩ | ⟨a, rest, hi, rfl⟩ | ⟨a, rest, hi, rfl⟩ | ⟨v, rest, hi, hv⟩ := step_cases hst
  · exact absurd (hedge _) ht
  · obtain ⟨v, rfl, hbit, hnone⟩ := performAccess_err (hedge rest ▸ hs) (hedge rest ▸ ht)
    exact ⟨rest, .inr ⟨v, hi, hbit, hnone⟩⟩
  · exact ⟨rest, .inl ⟨a, hi, rfl⟩⟩
  · have hkeep : t.err = s.err := by
      obtain ⟨code, rfl⟩ | ⟨i, -, -, -, rfl⟩ := commandEvent_cases hv
      · rw [State.recordErr_err, State.respond_err, hedge, if_neg hs]
      · rw [State.complete_err, commandEffect_err, State.respond_err, hedge]
    exact absurd hkeep ht

/-- Settles O51: the write stores the value's low W bits, the idle block goes nowhere, the read returns them. -/
theorem writeThenReadDatapath : Obligations.WriteThenReadDatapath := by
  intro s addr v rest hidle hal hrange hi
  have hdata := regAt_isData hal hrange
  have hcmd := Reg.ne_cmd_of_isData hdata
  have hwrite := step_of_idle_write hidle hi hal
  set r := regAt s.params addr
  set u := (writeReg r v (s.afterInput (.access (.read addr 8) :: rest))).respond .okWrite with hu
  have hrun : u.running = none := (writeReg_running hcmd v _).trans hidle
  have hpar : regAt u.params addr = r := congrArg (regAt · addr) (writeReg_params hcmd v _)
  have hin : u.inputs = .access (.read addr 8) :: rest := writeReg_inputs hcmd v _
  have hread := step_of_read hin hal (by rw [clockEdge_idle hrun]; exact inFlight_of_idle hrun _)
  rw [clockEdge_idle hrun, hpar] at hread
  refine ⟨_, steps_two hwrite hread, ?_, fun r' hne hs => ?_⟩
  · rw [State.answered, hu, readReg_respond, readReg_writeReg_same hdata, trunc_eq_ofNat (State.w_le _)]
    rfl
  · rw [readReg_answered, hu, readReg_respond, readReg_writeReg_other hdata hne hs, readReg_afterInput]

/-- Settles O54: neither an edge that completes no KSRUN, nor an access, nor another command sets SCHED_VALID. -/
theorem schedValidRule : Obligations.SchedValidRule := by
  refine ⟨fun s t hst hs ht => ?_, fun s t addr v rest hidle hal hrange hi hst => ?_⟩
  · by_cases hedge : (clockEdge s).schedValid = true
    · exact .inr (clockEdge_schedValid hs hedge)
    have hclear : ∀ rest, ((clockEdge s).afterInput rest).schedValid = false := fun _ => eq_false_of_ne_true hedge
    obtain ⟨-, rfl⟩ | ⟨a, rest, hi, rfl⟩ | ⟨a, rest, hi, rfl⟩ | ⟨v, rest, hi, hv⟩ := step_cases hst
    · exact absurd ht hedge
    · exact absurd ht (by rw [performAccess_schedValid a (hclear rest)]; exact Bool.false_ne_true)
    · cases ht
    · obtain ⟨code, rfl⟩ | ⟨i, hd, -, -, rfl⟩ := commandEvent_cases hv
      · exact absurd ht hedge
      · by_cases hk : i = .ksrun
        · exact .inl ⟨v, rest, hi, hk ▸ hd, rfl⟩
        · rw [State.complete_schedValid, commandEffect_schedValid hk] at ht
          exact absurd ht hedge
  · rw [step_of_idle_write hidle hi hal] at hst
    obtain rfl := Host.Outcome.next.inj hst
    rw [State.respond_schedValid]
    rcases hrange with rfl | rfl | ⟨hlo, hhi⟩ | ⟨hlo, hhi⟩
    · rfl
    · rfl
    · rw [regAt_key_window hlo hhi]; rfl
    · rw [regAt_rk_window hlo hhi]; rfl

/-- Settles O53: ID is never in flight, and its image is the sum of its fields. -/
theorem idReportsParameters : Obligations.IdReportsParameters := by
  intro s rest hi
  have hfl := inFlight_of_not_mem (not_mem_writeSet (r := .id) rfl (by decide) (by decide)) (clockEdge s)
  refine ⟨_, step_of_read hi rfl hfl, ?_⟩
  have hread : readReg (regAt s.params 0x000) (clockEdge s) = idImage s.params := congrArg idImage (clockEdge_params s)
  rw [hread, idImage_toNat]

/-- Settles O50: STATUS is never in flight, and it is written busy or not. -/
theorem statusReadAndWrite : Obligations.StatusReadAndWrite := by
  intro s v rest u code
  refine ⟨fun hi => ?_, fun hi => ?_⟩
  · have hfl := inFlight_of_not_mem (not_mem_writeSet (r := .status) rfl (by decide) (by decide)) u
    have hcode : u.err.code.toNat = code := by
      simp only [code]
      cases u.err <;> rfl
    exact ⟨_, step_of_read hi rfl hfl, (statusImage_toNat u).trans (by rw [hcode])⟩
  · have hdone : (if v.getLsbD 1 then false else u.done) = (u.done && !v.getLsbD 1) := by
      cases v.getLsbD 1 <;> simp
    have hreg : regAt s.params 0x010 = .status := rfl
    rw [step_of_write hi rfl, hreg, writeAccess_status, ← hdone]
    rfl

/-- Settles O52: each offset names its register, and the idle block performs the write. -/
theorem controlRegisterWrites : Obligations.ControlRegisterWrites := by
  intro s v rest hidle
  refine ⟨fun hi => ?_, fun hi => ?_, fun hi => ?_, fun addr haddr hi => ?_⟩
  · rw [step_of_idle_write hidle hi rfl, BitVec.ofNat_toNat]; rfl
  · rw [step_of_idle_write hidle hi rfl, BitVec.ofNat_toNat]; rfl
  · rw [step_of_idle_write hidle hi rfl]; rfl
  · rcases haddr with rfl | rfl | rfl | rfl | rfl <;> (rw [step_of_idle_write hidle hi rfl]; rfl)

/-- Settles O57: register by register; CTRL and STATUS are images of cleared flags. -/
theorem resetRegisterValues : Obligations.ResetRegisterValues := by
  intro p n r hkey hrk hid hp hq
  refine ⟨?_, rfl, rfl⟩
  cases r with
  | key j => exact absurd rfl (hkey j)
  | rk i => exact absurd rfl (hrk i)
  | id => exact absurd rfl hid
  | ksP => exact absurd rfl hp
  | ksQ => exact absurd rfl hq
  | ctrl => simp [readReg, ctrlImage, State.resetOf, flagAt]
  | status => exact BitVec.eq_of_toNat_eq (statusImage_toNat _)
  | _ => rfl

end

section
/-! Laws of accesses: what an access and a command keep of the instance and of the inputs, the reserved offsets,
illegal accesses, and reads of an idle block. -/

namespace Sys2Proof.Machine

/-! ## The parameters and the inputs -/

@[simp] theorem commandEffect_inputs (i : Instr) (s : State) : (commandEffect i s).inputs = s.inputs := by
  rw [commandEffect_frame]

theorem issueWord_keeps (v : Word) (s : State) :
    (issueWord v s).params = s.params ∧ (issueWord v s).inputs = s.inputs := by
  obtain ⟨code, he⟩ | ⟨i, -, -, he⟩ := issueWord_cases v s <;> rw [he]
  · exact ⟨rfl, rfl⟩
  · rw [accept_frame]; exact ⟨rfl, rfl⟩

theorem writeAccess_keeps (r : Reg) (v : Word) (s : State) :
    (writeAccess r v s).params = s.params ∧ (writeAccess r v s).inputs = s.inputs := by
  obtain ⟨-, -, -, he⟩ | ⟨-, he⟩ := writeAccess_cases r v s <;> rw [he]
  · exact ⟨rfl, rfl⟩
  · by_cases hcmd : r = .cmd
    · rw [hcmd]; exact issueWord_keeps v s
    · exact ⟨writeReg_params hcmd v s, writeReg_inputs hcmd v s⟩

theorem performAccess_keeps (a : Access) (s : State) :
    (performAccess a s).params = s.params ∧ (performAccess a s).inputs = s.inputs := by
  obtain ⟨x, n, he⟩ | ⟨addr, v, -, -, he⟩ := performAccess_cases a s <;> rw [he]
  · exact ⟨rfl, rfl⟩
  · exact writeAccess_keeps _ v s

theorem commandEvent_keeps {v : Word} {s t : State} (h : commandEvent v s = .next t) :
    t.params = s.params ∧ t.inputs = s.inputs := by
  obtain ⟨code, rfl⟩ | ⟨i, -, -, -, rfl⟩ := commandEvent_cases h
  · exact ⟨rfl, rfl⟩
  · exact ⟨commandEffect_params i _, commandEffect_inputs i _⟩

/-! ## Reserved offsets and illegal accesses -/

/-- The gaps of the address map, and the RAM entries that the instance does not have (`20_memory.md` R75, R77). -/
theorem regAt_reserved {p : Params} {addr : BitVec 12}
    (h : 0x058 ≤ addr.toNat ∧ addr.toNat < 0x080 ∨ 0x0C0 ≤ addr.toNat ∧ addr.toNat < 0x400 ∨
      0x400 + 8 * kmaxTable p.width ≤ addr.toNat ∧ addr.toNat < 0x800 ∨ 0x800 + 16 * p.rmax ≤ addr.toNat) :
    regAt p addr = .reserved := by
  by_cases hrk : 0x800 ≤ addr.toNat
  · have hi : ¬ (addr.toNat - 0x800) / 8 < rkSize p := by rw [rkSize]; omega
    simp only [regAt, hrk, hi, if_true, if_false]
  · by_cases hkey : 0x400 ≤ addr.toNat
    · have hj : ¬ (addr.toNat - 0x400) / 8 < kmax p := by rw [kmax_eq]; omega
      simp only [regAt, hrk, hkey, hj, if_true, if_false]
    · have hgap : ∀ row ∈ fixedMap, row.1 < 0x058 ∨ 0x080 ≤ row.1 ∧ row.1 < 0x0C0 := by decide
      have hnone : fixedMap.lookup addr.toNat = none :=
        List.lookup_eq_none_iff.2 fun row hrow => by
          have hrow := hgap row hrow
          exact bne_iff_ne.2 (by omega)
      rw [regAt_of_lt p (Nat.not_le.1 hkey), hnone]
      rfl

theorem legalAccess_eq_false {addr : BitVec 12} {size : Nat} (h : size ≠ 8 ∨ addr.toNat % 8 ≠ 0) :
    legalAccess addr size = false :=
  decide_eq_false (not_and_or.2 h)

/-! ## Reads -/

/-- A read touches the port's answer and the counter of free reads only (`20_memory.md` R78). -/
theorem performAccess_read_frame (addr : BitVec 12) (size : Nat) (s : State) :
    performAccess (.read addr size) s = { s with
      response := (performAccess (.read addr size) s).response
      freeReads := (performAccess (.read addr size) s).freeReads } := by
  obtain ⟨x, n, he⟩ | ⟨_, _, ha, -⟩ := performAccess_cases (.read addr size) s
  · rw [he]
  · cases ha

/-- An idle block answers a legal read with what the register holds, and nothing is drawn. -/
theorem performAccess_read_of_idle {s : State} (h : s.running = none) (addr : BitVec 12) (size : Nat) :
    performAccess (.read addr size) s =
      s.respond (if legalAccess addr size then .okRead (readReg (regAt s.params addr) s) else .error) := by
  rw [performAccess, readAccess, inFlight_of_idle h]
  cases legalAccess addr size <;> rfl

/-- CTRL as the sum of its two enables (`10_state.md` R32). -/
theorem ctrlImage_eq_ofNat (s : State) :
    ctrlImage s = BitVec.ofNat 64 (s.ieDone.toNat + 2 * s.ieErr.toNat) := by
  rw [ctrlImage]
  cases s.ieDone <;> cases s.ieErr <;> rfl

/-- KS_P of each width (`10_state.md` R39). -/
theorem ksP_eq_table (width : Width) :
    ksP width = match width with | .w16 => 0xB7E1 | .w32 => 0xB7E15162 | .w64 => 0xB7E151628AED2A6A := by
  cases width <;> rfl

/-- KS_Q of each width (`10_state.md` R39). -/
theorem ksQ_eq_table (width : Width) :
    ksQ width = match width with | .w16 => 0x9E37 | .w32 => 0x9E3779B9 | .w64 => 0x9E3779B97F4A7C15 := by
  cases width <;> rfl

theorem readReg_key_window {s : State} {addr : BitVec 12} {j : Nat} (hj : j < kmaxTable s.params.width)
    (h : addr.toNat = 0x400 + 8 * j) : readReg (regAt s.params addr) s = s.keyAt j := by
  rw [regAt_key_window (by omega) (by omega), show (addr.toNat - 0x400) / 8 = j by omega]
  rfl

theorem readReg_rk_window {s : State} {addr : BitVec 12} {i : Nat} (hi : i < 2 * s.params.rmax)
    (h : addr.toNat = 0x800 + 8 * i) : readReg (regAt s.params addr) s = s.rkAt i := by
  rw [regAt_rk_window (by omega) (by omega), show (addr.toNat - 0x800) / 8 = i by omega]
  rfl

end Sys2Proof.Machine
end

section
/-! The statements about the address map and the port (`20_memory.md`), settled. -/

open Sys2Proof Sys2Proof.Machine

/-- Settles O8: neither the sequencer's part of an edge, nor an access, nor a command touches the parameters or the
inputs that are left. -/
theorem stepKeepsParamsAndOrder : Obligations.StepKeepsParamsAndOrder := by
  intro s t hst
  have hedge : ∀ rest, ((clockEdge s).afterInput rest).params = s.params := fun _ => clockEdge_params s
  obtain ⟨-, rfl⟩ | ⟨a, rest, hi, rfl⟩ | ⟨a, rest, hi, rfl⟩ | ⟨v, rest, hi, hv⟩ := step_cases hst
  · exact ⟨hedge _, rfl⟩
  · obtain ⟨hp, hin⟩ := performAccess_keeps a ((clockEdge s).afterInput rest)
    exact ⟨hp.trans (hedge rest), hin.trans (congrArg List.tail hi).symm⟩
  · exact ⟨rfl, (congrArg List.tail hi).symm⟩
  · obtain ⟨hp, hin⟩ := commandEvent_keeps hv
    exact ⟨hp.trans (hedge rest), hin.trans (congrArg List.tail hi).symm⟩

/-- Settles O46: no command writes a reserved offset, so that none is in flight, and its write does nothing. -/
theorem reservedOffsetsReadZero : Obligations.ReservedOffsetsReadZero := by
  intro s addr v rest hal hrange
  have hreg : regAt s.params addr = .reserved := regAt_reserved hrange
  refine ⟨fun hi => ?_, fun hi => ?_⟩
  · have hfl := inFlight_of_not_mem (not_mem_writeSet (r := .reserved) rfl (by decide) (by decide)) (clockEdge s)
    rw [step_of_read hi hal (hreg ▸ hfl), hreg]
    rfl
  · rw [step_of_write hi hal, hreg]
    obtain ⟨hbusy, -, -, he⟩ | ⟨hidle, he⟩ := writeAccess_cases .reserved v ((clockEdge s).afterInput rest) <;> rw [he]
    · rw [if_neg (show (clockEdge s).running ≠ none from hbusy)]
      rfl
    · rw [if_pos (show (clockEdge s).running = none by simpa using hidle)]
      rfl

/-- Settles O47: the frame holds of every read; an idle block answers with the register that the offset names. -/
theorem readsHaveNoSideEffects : Obligations.ReadsHaveNoSideEffects := by
  intro s addr size rest hi u registers
  refine ⟨_, step_of_access hi, performAccess_read_frame addr size _, fun hidle => ?_, fun hidle hsize => ?_⟩
  · rw [performAccess_read_of_idle (show (u.afterInput rest).running = none from hidle)]
    rfl
  · subst hsize
    have hanswer : ∀ value, addr.toNat % 8 = 0 → readReg (regAt u.params addr) u = value →
        (performAccess (.read addr 8) (u.afterInput rest)).response = some (.okRead value) := by
      rintro value hal rfl
      rw [performAccess_read_of_idle (show (u.afterInput rest).running = none from hidle),
        if_pos (legalAccess_of_aligned hal), readReg_afterInput]
      rfl
    have hrows : ∀ row ∈ registers, row.1.toNat % 8 = 0 ∧ readReg (regAt u.params row.1) u = row.2 := by
      simp only [registers, List.forall_mem_cons]
      exact ⟨⟨rfl, ctrlImage_eq_ofNat u⟩, ⟨rfl, rfl⟩, ⟨rfl, rfl⟩, ⟨rfl, rfl⟩, ⟨rfl, rfl⟩, ⟨rfl, rfl⟩,
        ⟨rfl, ksP_eq_table _⟩, ⟨rfl, ksQ_eq_table _⟩, ⟨rfl, rfl⟩, ⟨rfl, rfl⟩, ⟨rfl, rfl⟩, ⟨rfl, rfl⟩, ⟨rfl, rfl⟩,
        ⟨rfl, rfl⟩, ⟨rfl, rfl⟩, ⟨rfl, rfl⟩, ⟨rfl, rfl⟩, fun _ h => absurd h List.not_mem_nil⟩
    refine ⟨fun value hrow => ?_, fun j hj haddr => ?_, fun i hlt haddr => ?_⟩
    · obtain ⟨hal, hread⟩ := hrows _ hrow
      exact hanswer value hal hread
    · exact hanswer _ (by omega) (readReg_key_window hj haddr)
    · exact hanswer _ (by omega) (readReg_rk_window hlt haddr)

/-- Settles O45: an illegal access, read or write, is answered before any register is named. -/
theorem illegalAccessAnsweredError : Obligations.IllegalAccessAnsweredError := by
  intro s addr size data a rest ha hill hi
  have hl : legalAccess addr size = false := legalAccess_eq_false hill
  rw [step_of_access hi]
  rcases ha with rfl | rfl
  · rw [performAccess, hl]; rfl
  · rw [performAccess, hl]; rfl

end

section
/-! Laws of the decoder and the encoder (`30_encoding.md`): the fields of a command's word, and the rows of the opcode
table. -/

namespace Sys2Proof

open Laws

/-! ## The fields of a word -/

theorem opField_eq_mod (v : Word) : opField v = v.toNat % 256 := by
  rw [opField, BitVec.extractLsb'_toNat, Nat.shiftRight_zero]

/-- RULE and KIDX are one field, bits [15:8]. -/
theorem kidxField_eq (v : Word) : kidxField v = (ruleField v).toNat := rfl

theorem kidxField_eq_div (v : Word) : kidxField v = v.toNat / 256 % 256 := by
  rw [kidxField, BitVec.extractLsb'_toNat, Nat.shiftRight_eq_div_pow]

@[simp] theorem ruleField_or (x y : Word) : ruleField (x ||| y) = ruleField x ||| ruleField y :=
  BitVec.extractLsb'_or

@[simp] theorem ruleField_imm8 (n : Nat) : ruleField (imm8 n) = BitVec.ofNat 8 n := by
  apply BitVec.eq_of_toNat_eq
  rw [ruleField, imm8, BitVec.extractLsb'_toNat, BitVec.toNat_shiftLeft, BitVec.toNat_ofNat, BitVec.toNat_ofNat,
    Nat.shiftLeft_eq, Nat.shiftRight_eq_div_pow]
  omega

/-- A one-bit field above bit 15 is no part of RULE. -/
theorem ruleField_bitAt {pos : Nat} (h : 16 ≤ pos) (b : Bool) : ruleField (bitAt b pos) = 0 := by
  ext k hk
  simp [ruleField, bitAt, show 8 + k < pos by omega]

/-- An opcode is no part of RULE. -/
theorem ruleField_op {op : Word} (h : op.toNat < 256) : ruleField op = 0 := by
  apply BitVec.eq_of_toNat_eq
  rw [ruleField, BitVec.extractLsb'_toNat, Nat.shiftRight_eq_div_pow, Nat.div_eq_of_lt h]
  rfl

@[simp] theorem getElem_bitAt {pos k : Nat} (hk : k < 64) (b : Bool) :
    (bitAt b pos)[k] = (decide (k = pos) && b) := by
  cases b
  · simp [bitAt]
  · rw [Bool.eq_iff_iff]
    simp [bitAt, BitVec.getElem_one]
    omega

/-- An 8-bit field lies in bits [15:8]. -/
theorem imm8_eq_and {n : Nat} (hn : n < 256) : imm8 n = imm8 n &&& 0xFF00 := by
  obtain ⟨rule, rfl⟩ : ∃ rule : Rule, rule.toNat = n := ⟨BitVec.ofNat 8 n, Nat.mod_eq_of_lt hn⟩
  revert rule
  decide

theorem getElem_imm8 {n k : Nat} (hn : n < 256) (hk : k < 64) (h : (0xFF00 : Word)[k] = false) :
    (imm8 n)[k] = false := by
  rw [imm8_eq_and hn, BitVec.getElem_and, h, Bool.and_false]

/-- A field outside a mask's bits is cleared by it. -/
theorem imm8_and_mask {n : Nat} (hn : n < 256) {m : Word} (hm : 0xFF00 &&& m = 0) : imm8 n &&& m = 0 := by
  rw [imm8_eq_and hn, BitVec.and_assoc, hm]
  exact BitVec.and_zero

/-- A field outside a mask's bits is cleared by it. -/
theorem bitAt_and_mask {pos : Nat} {m : Word} (hm : 1#64 <<< pos &&& m = 0) (b : Bool) : bitAt b pos &&& m = 0 := by
  cases b
  · simp [bitAt]
  · exact hm

/-- The bits [15:8] of a word are its KIDX field put back in place. -/
theorem imm8_kidxField (v : Word) : imm8 (kidxField v) = v &&& 0xFF00 := by
  have hmask : (0xFF00 : Word) = (BitVec.allOnes 8).setWidth 64 <<< 8 := rfl
  have hfield : imm8 (kidxField v) = (v.extractLsb' 8 8).setWidth 64 <<< 8 := by
    rw [imm8, kidxField, BitVec.ofNat_toNat]
  ext k hk
  rw [hfield, hmask, BitVec.getElem_and]
  simp only [BitVec.getElem_shiftLeft, BitVec.getElem_setWidth, BitVec.getLsbD_extractLsb', BitVec.getLsbD_allOnes]
  by_cases h8 : k < 8
  · simp [h8]
  · rw [Nat.add_sub_cancel' (Nat.not_lt.1 h8), BitVec.getLsbD_eq_getElem hk, Bool.and_comm v[k], Bool.and_assoc]

/-- A bit of a word put back in place. -/
theorem bitAt_getLsbD (v : Word) (pos : Nat) : bitAt (v.getLsbD pos) pos = v &&& 1#64 <<< pos := by
  ext k hk
  rw [getElem_bitAt, BitVec.getElem_and, BitVec.getElem_shiftLeft, BitVec.getElem_one, ← BitVec.getLsbD_eq_getElem]
  obtain rfl | hne := eq_or_ne k pos
  · simp
  · simp [hne]
    omega

@[simp] theorem Half.ite_bit (h : Half) : (if h.bit then Half.B else .A) = h := by cases h <;> rfl

@[simp] theorem Boundary.ite_bit (bnd : Boundary) : (if bnd.bit then Boundary.zero else .periodic) = bnd := by
  cases bnd <;> rfl

@[simp] theorem StoreOrder.ite_bit (ord : StoreOrder) : (if ord.bit then StoreOrder.decrypt else .encrypt) = ord := by
  cases ord <;> rfl

@[simp] theorem bit_halfField (v : Word) : (halfField v).bit = v.getLsbD 16 := by
  rw [halfField]; cases v.getLsbD 16 <;> rfl

@[simp] theorem bit_bndField (v : Word) : (bndField v).bit = v.getLsbD 17 := by
  rw [bndField]; cases v.getLsbD 17 <;> rfl

@[simp] theorem bit_ordField (v : Word) : (ordField v).bit = v.getLsbD 17 := by
  rw [ordField]; cases v.getLsbD 17 <;> rfl

/-! ## The rows of the opcode table -/

/-- The rows of the opcode table are the decoder's: each opcode with its mask (`30_encoding.md` R107). The last of the
seventeen cases of `rowMask` is the undefined opcode. -/
theorem find_opcodeRows (op : Nat) :
    (Machine.opcodeRows.find? fun row => row.1.toNat = op) = (rowMask op).map fun m => (BitVec.ofNat 64 op, m) := by
  unfold rowMask
  split
  case h_17 =>
    rw [Option.map_none, List.find?_eq_none]
    simp only [Machine.opcodeRows, List.forall_mem_cons, decide_eq_true_eq]
    simp_all [eq_comm]
  all_goals rfl

/-- The undefined opcodes (`30_encoding.md` R109). -/
theorem rowMask_of_gap {op : Nat} (h : 0x04 ≤ op ∧ op ≤ 0x0F ∨ 0x17 ≤ op ∧ op ≤ 0x1F ∨ 0x21 ≤ op ∧ op ≤ 0x2F ∨
    0x34 ≤ op) : rowMask op = none := by
  unfold rowMask
  split
  case h_17 => rfl
  all_goals omega

theorem rowMask_of_mem_opcodeRows {m k : Word} (h : (m, k) ∈ Machine.opcodeRows) : rowMask m.toNat = some k := by
  have hrows : ∀ row ∈ Machine.opcodeRows, rowMask row.1.toNat = some row.2 := by simp [Machine.opcodeRows, rowMask]
  exact hrows _ h

/-- A defined opcode builds a command of that opcode. -/
theorem buildInstr_of_rowMask {op : Nat} {m : Word} (h : rowMask op = some m) (v : Word) :
    ∃ i, buildInstr op v = some i ∧ i.opcode = op := by
  unfold rowMask at h
  split at h <;> cases h <;> exact ⟨_, rfl, rfl⟩

theorem decode_of_undefined {v : Word} (h : rowMask (opField v) = none) : decode v = .error .undefinedOpcode := by
  simp [decode, h]

theorem decode_of_defined {v m : Word} {i : Instr} (hm : rowMask (opField v) = some m)
    (hi : buildInstr (opField v) v = some i) :
    decode v = if v &&& m = BitVec.ofNat 64 (opField v) then .ok i else .error .reservedBits := by
  simp [decode, hm, hi]

/-! ## Decoding an encoded command -/

/-- A command's word has the command's opcode (`30_encoding.md` R101). -/
theorem opField_encode {i : Instr} (hw : i.wellFormed = true) : opField (encode i) = i.opcode := by
  have hword : EncodedWord.Statement i := by
    cases i with
    | nop => exact EncodedWord.nop
    | nbidx l c r => exact EncodedWord.nbidx l c r
    | rulebit rule l c r => exact EncodedWord.rulebit rule l c r
    | castep rule bnd => exact EncodedWord.castep rule bnd
    | mload h rev => exact EncodedWord.mload h rev
    | mstore h ord => exact EncodedWord.mstore h ord
    | mxs h kidx => exact EncodedWord.mxs h kidx
    | mxp h kidx => exact EncodedWord.mxp h kidx
    | mstep h rule => exact EncodedWord.mstep h rule
    | msel h => exact EncodedWord.msel h
    | mmorph h => exact EncodedWord.mmorph h
    | ksrun => exact EncodedWord.ksrun
    | ernd kidx => exact EncodedWord.ernd kidx
    | drnd kidx => exact EncodedWord.drnd kidx
    | enc => exact EncodedWord.enc
    | dec => exact EncodedWord.dec
  exact (opField_eq_mod _).trans (hword hw).1

/-- The fields of a command's word are the command's operands. -/
theorem buildInstr_encode {i : Instr} (hw : i.wellFormed = true) : buildInstr i.opcode (encode i) = some i := by
  cases i with
  | nop | ksrun | enc | dec => rfl
  | nbidx l c r | mload h rev | mstore h ord | msel h | mmorph h =>
    simp [buildInstr, Instr.opcode, encode, halfField, ordField]
  | rulebit rule l c r | castep rule bnd | mstep h rule =>
    simp [buildInstr, Instr.opcode, encode, halfField, bndField, getElem_imm8 rule.isLt, ruleField_bitAt, ruleField_op]
  | mxs h kidx | mxp h kidx | ernd kidx | drnd kidx =>
    have hk : kidx < 256 := of_decide_eq_true hw
    simp [buildInstr, Instr.opcode, encode, halfField, kidxField_eq, getElem_imm8 hk, ruleField_bitAt, ruleField_op,
      Nat.mod_eq_of_lt hk]

/-- The bits of a command's word that its row fixes are those of its opcode (`30_encoding.md` R108). -/
theorem encode_and_mask {i : Instr} (hw : i.wellFormed = true) {m : Word} (hm : rowMask i.opcode = some m) :
    encode i &&& m = BitVec.ofNat 64 i.opcode := by
  cases i with
  | nop | ksrun | enc | dec => cases hm; rfl
  | nbidx l c r | mload h rev | mstore h ord | msel h | mmorph h =>
    cases hm
    simp [encode, Instr.opcode, BitVec.and_or_distrib_right, bitAt_and_mask]
  | rulebit rule l c r | castep rule bnd | mstep h rule =>
    cases hm
    simp [encode, Instr.opcode, BitVec.and_or_distrib_right, bitAt_and_mask, imm8_and_mask rule.isLt]
  | mxs h kidx | mxp h kidx | ernd kidx | drnd kidx =>
    cases hm
    have hk : kidx < 256 := of_decide_eq_true hw
    simp [encode, Instr.opcode, BitVec.and_or_distrib_right, bitAt_and_mask, imm8_and_mask hk]

/-- The decoder gives back every well-formed command (`30_encoding.md` R118). -/
theorem decode_encode {i : Instr} (hw : i.wellFormed = true) : decode (encode i) = .ok i := by
  have hop := opField_encode hw
  obtain ⟨m, hm⟩ : ∃ m, rowMask i.opcode = some m := by cases i <;> exact ⟨_, rfl⟩
  rw [decode_of_defined (hop ▸ hm) (hop ▸ buildInstr_encode hw), hop, if_pos (encode_and_mask hw hm)]

/-! ## Encoding a decoded command -/

/-- A word that agrees with its row's fixed bits is the word of the command that its fields give: the opcode stands in
the fixed bits, and the fields cover the rest. -/
theorem encode_buildInstr {v m : Word} {i : Instr} (hm : rowMask i.opcode = some m)
    (hi : buildInstr i.opcode v = some i) (h : v &&& m = BitVec.ofNat 64 i.opcode) : encode i = v := by
  have hword : BitVec.ofNat 64 i.opcode ||| v &&& ~~~m = v := by
    rw [← h, ← BitVec.and_or_distrib_left, BitVec.or_not_self, BitVec.and_allOnes]
  cases i with
  | nop | ksrun | enc | dec =>
    cases hm
    exact h.symm.trans BitVec.and_allOnes
  | _ =>
    cases hm
    cases hi
    refine Eq.trans ?_ hword
    simp only [encode, ← kidxField_eq, imm8_kidxField, bitAt_getLsbD, bit_halfField, bit_bndField, bit_ordField,
      BitVec.or_assoc, ← BitVec.and_or_distrib_left]
    rfl

/-- A word decodes only to the command that encodes to it (`30_encoding.md` R117). -/
theorem encode_of_decode {v : Word} {i : Instr} (h : decode v = .ok i) : encode i = v := by
  cases hm : rowMask (opField v) with
  | none =>
    rw [decode_of_undefined hm] at h
    cases h
  | some m =>
    obtain ⟨j, hj, hop⟩ := buildInstr_of_rowMask hm v
    rw [decode_of_defined hm hj] at h
    split_ifs at h with hv
    cases h
    rw [← hop] at hm hj hv
    exact encode_buildInstr hm hj hv

theorem opField_of_decode {v : Word} {i : Instr} (h : decode v = .ok i) : opField v = i.opcode :=
  encode_of_decode h ▸ opField_encode (Machine.wellFormed_of_decode h)

end Sys2Proof
end

section
/-! Laws of issuing a command: the checks of a value written to CMD, what a refusal and an acceptance leave unchanged,
and what an accepted command leaves unchanged. -/

namespace Sys2Proof.Machine

/-! ## The checks of a value written to CMD -/

/-- Checks 1 and 2 of `30_encoding.md` R112 are the decoder's. -/
theorem refusalCode_of_decode_error {v : Word} {e : DecodeError} (h : decode v = .error e) (s : State) :
    refusalCode v s = some (decodeErrCode e) := by
  have hop := opField_eq_mod v
  cases hm : rowMask (opField v) with
  | none =>
    rw [decode_of_undefined hm] at h
    cases h
    simp [refusalCode, find_opcodeRows, ← hop, hm, decodeErrCode]
  | some m =>
    obtain ⟨j, hj, -⟩ := buildInstr_of_rowMask hm v
    rw [decode_of_defined hm hj] at h
    split_ifs at h with hv
    cases h
    simp [refusalCode, find_opcodeRows, ← hop, hm, hv, decodeErrCode]

/-- Checks 3 to 5 of `30_encoding.md` R112 are those of the decoded command. -/
theorem refusalCode_of_decode {v : Word} {i : Instr} (h : decode v = .ok i) (s : State) :
    refusalCode v s = check i s := by
  have hop := opField_of_decode h
  have hbuild := buildInstr_of_decode h
  obtain ⟨m, hm⟩ : ∃ m, rowMask i.opcode = some m := by cases i <;> exact ⟨_, rfl⟩
  have hv := encode_and_mask (wellFormed_of_decode h) hm
  rw [encode_of_decode h] at hv
  rw [hop] at hbuild
  have hR : s.rounds.toNat = s.r := rfl
  have hK : s.keylen.toNat = s.k := rfl
  have hsize : 2 * s.params.rmax = rkSize s.params := rfl
  simp only [refusalCode, find_opcodeRows, ← opField_eq_mod, ← kidxField_eq_div, hop, hm, Option.map_some, hv, hR, hK,
    hsize, ← kmax_eq]
  cases i with
  | mxs hf kidx | mxp hf kidx => cases hbuild; simp [Instr.opcode, check, kidxCheck]
  | ernd kidx => cases hbuild; simp [Instr.opcode, check, erndCheck]
  | drnd kidx => cases hbuild; simp [Instr.opcode, check, drndCheck]
  | enc | dec => simp [Instr.opcode, check, roundsCheck]
  | ksrun =>
    by_cases hr : s.r = 0 ∨ s.params.rmax < s.r
    · simp [Instr.opcode, check, ksrunCheck, roundsCheck, hr]
    · simp [Instr.opcode, check, ksrunCheck, roundsCheck, keylenCheck, hr]
  | _ => simp [Instr.opcode, check]

theorem issueWord_of_refused {v : Word} {s : State} {code : ErrCode} (h : refusalCode v s = some code) :
    issueWord v s = s.recordErr code := by
  cases hd : decode v with
  | error e =>
    rw [refusalCode_of_decode_error hd] at h
    cases h
    rw [issueWord, hd]
  | ok i =>
    rw [refusalCode_of_decode hd] at h
    simp only [issueWord, hd, h]

theorem issueWord_of_accepted {v : Word} {i : Instr} {s : State} (hd : decode v = .ok i) (hc : check i s = none) :
    issueWord v s = accept i s := by
  simp only [issueWord, hd, hc]

/-- A value that passes every check is a command. -/
theorem decode_of_not_refused {v : Word} {s : State} (h : refusalCode v s = none) :
    ∃ i, decode v = .ok i ∧ check i s = none := by
  cases hd : decode v with
  | error e =>
    rw [refusalCode_of_decode_error hd] at h
    cases h
  | ok i => exact ⟨i, rfl, refusalCode_of_decode hd s ▸ h⟩

/-! ## Refusals and acceptance as steps -/

/-- A write that the hazard rule drops (`70_reset_and_hazards.md` R270). -/
theorem writeAccess_of_busy {s : State} {r : Reg} (h : s.running ≠ none) (hc : r ≠ .ctrl) (hs : r ≠ .status)
    (v : Word) : writeAccess r v s = s.recordErr .busy := by
  simp [writeAccess, (busy_iff s).2 h, hc, hs]

/-- A write to CMD while idle. -/
theorem step_of_idle_cmd_write {s : State} {v : Word} {rest : List Event} (hr : s.running = none)
    (h : s.inputs = .access (.write 0x020 8 v) :: rest) :
    step s = .next ((issueWord v (s.afterInput rest)).respond .okWrite) :=
  step_of_idle_write hr h rfl

/-- A value that is no command, written to CMD or issued at command level while idle. -/
theorem step_of_decode_error {s : State} {v : Word} {rest : List Event} {e : Event} {err : DecodeError}
    (hr : s.running = none) (hd : decode v = .error err)
    (he : e = .command v ∨ e = .access (.write 0x020 8 v)) (hi : s.inputs = e :: rest) :
    step s = .next (s.answered rest .okWrite (some (decodeErrCode err))) := by
  rcases he with rfl | rfl
  · have hbusy : (s.afterInput rest).busy = false := (busy_false_iff s).2 hr
    rw [step_of_command hi, clockEdge_idle hr, commandEvent, hd, hbusy]
    rfl
  · rw [step_of_idle_cmd_write hr hi, issueWord, hd]
    rfl

/-- A command that a check refuses while idle records the check's code. -/
theorem exec_of_refused {i : Instr} {s : State} {code : ErrCode} (hr : s.running = none) (hc : check i s = some code) :
    exec i s = .next (s.recordErr code) := by
  rw [exec_eq_issue, hc, issue_of_refused _ hr]

theorem startTask_op (i : Instr) (s : State) : (startTask i s).op = i := by cases i <;> rfl

/-! ## The frame of a command -/

/-- STATUS and the port are the only readers of the flags, the sequencer and the port's own fields. -/
theorem readReg_of_control {r : Reg} (hr : r ≠ .status) {s t : State}
    (h : t = { s with
      done := t.done, schedValid := t.schedValid, err := t.err, running := t.running, inputs := t.inputs
      response := t.response }) : readReg r t = readReg r s := by
  rw [h]
  cases r with
  | status => exact absurd rfl hr
  | _ => rfl

section
variable {r : Reg} (s : State)

theorem readReg_setRes (hr : r ≠ .res) (v : Word) : readReg r (s.setRes v) = readReg r s := by
  cases r with
  | res => exact absurd rfl hr
  | _ => rfl

theorem readReg_setLastRule (hr : r ≠ .lastRule) (rule : Rule) : readReg r (s.setLastRule rule) = readReg r s := by
  cases r with
  | lastRule => exact absurd rfl hr
  | _ => rfl

theorem readReg_setCar (hr : r ≠ .car) (v : Word) : readReg r (s.setCar v) = readReg r s := by
  cases r with
  | car => exact absurd rfl hr
  | _ => rfl

theorem readReg_setHalf {h : Half} (hr : r ∉ halfSet h) (g : HalfRegs) : readReg r (s.setHalf h g) = readReg r s := by
  cases h <;> cases r
  any_goals rfl
  all_goals exact absurd (by decide) hr

theorem readReg_xorState {h : Half} {kidx n : Nat} (hr : r ∉ writeSet (.mxs h kidx) n) (x : Word) :
    readReg r (s.setHalf h ((s.half h).xorState x)) = readReg r s := by
  cases h <;> cases r
  any_goals rfl
  all_goals exact absurd List.mem_cons_self hr

theorem readReg_xorPrev {h : Half} {kidx n : Nat} (hr : r ∉ writeSet (.mxp h kidx) n) (x : Word) :
    readReg r (s.setHalf h ((s.half h).xorPrev x)) = readReg r s := by
  cases h <;> cases r
  any_goals rfl
  all_goals exact absurd List.mem_cons_self hr

theorem readReg_setPair {h : Half} {ord : StoreOrder} {n : Nat} (hr : r ∉ writeSet (.mstore h ord) n) (x y : Word) :
    readReg r (s.setPair h x y) = readReg r s := by
  cases h <;> cases r
  any_goals rfl
  all_goals exact absurd (by simp [writeSet]) hr

theorem readReg_loadBlock (hA : r ∉ halfSet .A) (hB : r ∉ halfSet .B) (rev : Bool) :
    readReg r (loadBlock rev s) = readReg r s :=
  (readReg_setHalf _ hB _).trans (readReg_setHalf s hA _)

theorem readReg_storeBlock {n : Nat} (hA : r ∉ writeSet (.mstore .A .encrypt) n)
    (hB : r ∉ writeSet (.mstore .B .encrypt) n) (ord : StoreOrder) : readReg r (storeBlock ord s) = readReg r s := by
  cases ord <;> exact (readReg_setPair _ (ord := .encrypt) hB _ _).trans (readReg_setPair s (ord := .encrypt) hA _ _)

theorem readReg_encRound (hA : r ∉ halfSet .A) (hB : r ∉ halfSet .B) (hl : r ≠ .lastRule) (k : Nat) :
    readReg r (encRound k s) = readReg r s :=
  (readReg_setLastRule _ hl _).trans ((readReg_setHalf _ hB _).trans (readReg_setHalf s hA _))

theorem readReg_decRound (hA : r ∉ halfSet .A) (hB : r ∉ halfSet .B) (hl : r ≠ .lastRule) (k : Nat) :
    readReg r (decRound k s) = readReg r s :=
  (readReg_setLastRule _ hl _).trans ((readReg_setHalf _ hA _).trans (readReg_setHalf s hB _))

theorem readReg_encRounds (hA : r ∉ halfSet .A) (hB : r ∉ halfSet .B) (hl : r ≠ .lastRule) (n k : Nat) :
    readReg r (encRounds n k s) = readReg r s := by
  induction n with
  | zero => rfl
  | succ n ih => rw [encRounds_succ, readReg_encRound _ hA hB hl, ih]

theorem readReg_decRounds (hA : r ∉ halfSet .A) (hB : r ∉ halfSet .B) (hl : r ≠ .lastRule) (n k : Nat) :
    readReg r (decRounds n k s) = readReg r s := by
  induction n with
  | zero => rfl
  | succ n ih => rw [decRounds_succ, readReg_decRound _ hA hB hl, ih]

/-- A finished expansion writes RK[0..2R-1], LASTRULE and SCHED_VALID. -/
theorem readReg_ksWriteBack (hs : r ≠ .status) (hl : r ≠ .lastRule) {q : KsWork} {n : Nat}
    (hlen : q.sched.length = n) (hr : r ∉ (List.range n).map Reg.rk) : readReg r (ksWriteBack q s) = readReg r s := by
  have hlast : readReg r (ksWriteBack q s) = readReg r (s.setRk (s.rk.insertFrom 0 q.sched)) :=
    (readReg_of_control hs rfl).trans (readReg_setLastRule _ hl _)
  rw [hlast]
  cases r with
  | rk i =>
    have hi : ¬ i < n := fun hi => hr (List.mem_map_of_mem (List.mem_range.2 hi))
    simp [readReg, State.rkAt, Memory.find_insertFrom, hlen, hi, State.ramInitial]
  | _ => rfl

theorem not_mem_of_not_mem_ernd {kidx n : Nat} (hr : r ∉ writeSet (.ernd kidx) n) :
    r ∉ halfSet .A ∧ r ∉ halfSet .B ∧ r ≠ .lastRule := by
  simpa [writeSet, and_assoc] using hr

theorem not_mem_of_not_mem_enc {n : Nat} (hr : r ∉ writeSet .enc n) :
    r ∉ halfSet .A ∧ r ∉ halfSet .B ∧ r ≠ .lastRule ∧ r ∉ writeSet (.mstore .A .encrypt) n ∧
      r ∉ writeSet (.mstore .B .encrypt) n := by
  simp only [writeSet, List.mem_append, List.mem_cons, List.not_mem_nil, or_false, not_or] at hr ⊢
  tauto

/-- An accepted command changes no register outside its write set, STATUS apart (`30_encoding.md` R116). -/
theorem readReg_commandEffect {i : Instr} (hc : check i s = none) (hs : r ≠ .status)
    (hr : r ∉ writeSet i (ksLength s)) : readReg r (commandEffect i s) = readReg r s := by
  cases i with
  | nop => rfl
  | nbidx | rulebit => exact readReg_setRes s (List.ne_of_not_mem_cons hr) _
  | castep rule bnd =>
    obtain ⟨hcar, hl⟩ : r ≠ .car ∧ r ≠ .lastRule := by simpa [writeSet] using hr
    exact (readReg_setLastRule _ hl _).trans (readReg_setCar s hcar _)
  | mload h rev => exact readReg_setHalf s hr _
  | mstore h ord => cases ord <;> exact readReg_setPair s hr _ _
  | mxs h kidx => exact readReg_xorState s hr _
  | mxp h kidx => exact readReg_xorPrev s hr _
  | mstep h | mmorph h =>
    obtain ⟨hh, hl⟩ : r ∉ halfSet h ∧ r ≠ .lastRule := by simpa [writeSet] using hr
    exact (readReg_setLastRule _ hl _).trans (readReg_setHalf s hh _)
  | msel h =>
    obtain ⟨hres, hl⟩ : r ≠ .res ∧ r ≠ .lastRule := by simpa [writeSet] using hr
    exact (readReg_setLastRule _ hl _).trans (readReg_setRes s hres _)
  | ksrun =>
    obtain ⟨hR, hK⟩ := (ksrunCheck_eq_none_iff s).1 hc
    rw [writeSet, List.mem_append, List.mem_singleton, not_or] at hr
    exact readReg_ksWriteBack s hs hr.2 (KsWork.Ok.start hR hK).rest.2 hr.1
  | ernd =>
    obtain ⟨hA, hB, hl⟩ := not_mem_of_not_mem_ernd hr
    exact readReg_encRound s hA hB hl _
  | drnd kidx =>
    obtain ⟨hA, hB, hl⟩ := not_mem_of_not_mem_ernd (kidx := kidx) (n := ksLength s) hr
    exact readReg_decRound s hA hB hl _
  | enc =>
    obtain ⟨hA, hB, hl, hpA, hpB⟩ := not_mem_of_not_mem_enc hr
    rw [commandEffect, readReg_storeBlock _ hpA hpB, readReg_encRounds _ hA hB hl, readReg_loadBlock _ hA hB]
  | dec =>
    obtain ⟨hA, hB, hl, hpA, hpB⟩ := not_mem_of_not_mem_enc (n := ksLength s) hr
    rw [commandEffect, readReg_storeBlock _ hpA hpB, readReg_decRounds _ hA hB hl, readReg_loadBlock _ hA hB]

/-- Acceptance changes no register outside the command's write set, STATUS apart (`30_encoding.md` R113). -/
theorem readReg_accept {i : Instr} {n : Nat} (hs : r ≠ .status) (hr : r ∉ writeSet i n) :
    readReg r (accept i s) = readReg r s := by
  cases i with
  | enc =>
    obtain ⟨hA, hB, -⟩ := not_mem_of_not_mem_enc hr
    exact (readReg_of_control hs rfl).trans (readReg_loadBlock s hA hB false)
  | dec =>
    obtain ⟨hA, hB, -⟩ := not_mem_of_not_mem_enc (n := n) hr
    exact (readReg_of_control hs rfl).trans (readReg_loadBlock s hA hB true)
  | _ => exact readReg_of_control hs rfl

end

end Sys2Proof.Machine
end

section
/-! Laws of a running command: what is left of it is the same after every edge, and whatever the host does at an edge it
goes on. -/

namespace Sys2Proof.Machine

/-! ## DONE and the sequencer -/

/-- DONE and the sequencer set: what acceptance, an edge and completion set in every command. -/
def State.withStatus (s : State) (d : Bool) (q : Option Running) : State := { s with done := d, running := q }

theorem encRounds_withStatus (d : Bool) (q : Option Running) (n k : Nat) (s : State) :
    encRounds n k (s.withStatus d q) = (encRounds n k s).withStatus d q := by
  induction n with
  | zero => rfl
  | succ n ih => rw [encRounds_succ, encRounds_succ, ih]; rfl

theorem decRounds_withStatus (d : Bool) (q : Option Running) (n k : Nat) (s : State) :
    decRounds n k (s.withStatus d q) = (decRounds n k s).withStatus d q := by
  induction n with
  | zero => rfl
  | succ n ih => rw [decRounds_succ, decRounds_succ, ih]; rfl

theorem storeBlock_withStatus (ord : StoreOrder) (d : Bool) (q : Option Running) (s : State) :
    storeBlock ord (s.withStatus d q) = (storeBlock ord s).withStatus d q := by cases ord <;> rfl

theorem loadBlock_withStatus (rev : Bool) (d : Bool) (q : Option Running) (s : State) :
    loadBlock rev (s.withStatus d q) = (loadBlock rev s).withStatus d q := rfl

/-- No command's effect reads or writes DONE or the sequencer. -/
theorem commandEffect_withStatus (i : Instr) (d : Bool) (q : Option Running) (s : State) :
    commandEffect i (s.withStatus d q) = (commandEffect i s).withStatus d q := by
  cases i with
  | mload h | mxs h | mxp h | mstep h | mmorph h | msel h => cases h <;> rfl
  | mstore h ord => cases h <;> cases ord <;> rfl
  | enc =>
    simp only [commandEffect, loadBlock_withStatus, encRounds_withStatus, storeBlock_withStatus]
    rfl
  | dec =>
    simp only [commandEffect, loadBlock_withStatus, decRounds_withStatus, storeBlock_withStatus]
    rfl
  | _ => rfl

theorem complete_withStatus (d : Bool) (q : Option Running) (s : State) :
    (s.withStatus d q).complete = s.complete := rfl

/-! ## What is left of a running command -/

theorem accept_withPort (i : Instr) (l : List Event) (a : Option Response) (s : State) :
    accept i (s.withPort l a) = (accept i s).withPort l a := by cases i <;> rfl

/-- The end of a one-step command whose checks pass. -/
theorem finish_unit_of_check {i : Instr} {s : State} (hc : check i s = none) :
    finish (.unit i) s = (commandEffect i s).complete := by
  have hc' : check i (s.setRunning none) = none := (check_congr rfl rfl rfl i).trans hc
  have hset : s.setRunning none = s.withStatus s.done none := rfl
  rw [finish, carryOut, exec_eq_issue, hc', issue_of_accepted _ rfl, hset, commandEffect_withStatus,
    complete_withStatus]

theorem finish_unit_withStatus {i : Instr} {s : State} (hc : check i s = none) (d : Bool) (q : Option Running) :
    finish (.unit i) (s.withStatus d q) = (commandEffect i s).complete := by
  have hc' : check i (s.withStatus d q) = none := (check_congr rfl rfl rfl i).trans hc
  rw [finish_unit_of_check hc', commandEffect_withStatus, complete_withStatus]

/-- The end of an accepted command is the end of the command carried out at once. -/
theorem finish_accept {i : Instr} {s : State} (hc : check i s = none) :
    finish (startTask i s) (accept i s) = (commandEffect i s).complete := by
  cases i with
  | enc =>
    have hacc : accept .enc s = (loadBlock false s).withStatus false (some ⟨.enc 0 0, latency .enc s⟩) := rfl
    rw [startTask, finish, hacc, encRounds_withStatus, storeBlock_withStatus, complete_withStatus]
    rfl
  | dec =>
    have hacc : accept .dec s =
      (loadBlock true s).withStatus false (some ⟨.dec 0 (2 * s.r - 1), latency .dec s⟩) := rfl
    rw [startTask, finish, hacc, decRounds_withStatus, storeBlock_withStatus, complete_withStatus]
    rfl
  | ksrun => rfl
  | _ => exact finish_unit_withStatus hc _ _

/-- The end of a command does not read the sequencer's own field. -/
theorem finish_setRunning (task : Task) (q : Option Running) (s : State) :
    finish task (s.setRunning q) = finish task s := by
  have hset : s.setRunning q = s.withStatus s.done q := rfl
  cases task with
  | unit i => rfl
  | enc rnd k =>
    rw [finish, hset, encRounds_withStatus, storeBlock_withStatus, complete_withStatus]
    rfl
  | dec rnd k =>
    rw [finish, hset, decRounds_withStatus, storeBlock_withStatus, complete_withStatus]
    rfl
  | ksrun work => rfl

theorem ksRest_ksFill {s : State} {q : KsWork} (h : q.fill < ksLength s) : ksRest s (ksFill s q) = ksRest s q := by
  have hleft : ksLength s - q.fill = ksLength s - (q.fill + 1) + 1 := by omega
  rw [ksRest, ksRest, hleft, Function.iterate_succ_apply]
  rfl

theorem ksRest_ksMix {s : State} {q : KsWork} (hfill : ¬ q.fill < ksLength s) (h : q.t < ksPasses s) :
    ksRest s (ksMix s q) = ksRest s q := by
  have hfilled : ksLength s - q.fill = 0 := by omega
  have hfilled' : ksLength s - (ksMix s q).fill = 0 := hfilled
  have hleft : ksPasses s - q.t = ksPasses s - (q.t + 1) + 1 := by omega
  rw [ksRest, ksRest, hfilled, hfilled', hleft, Function.iterate_succ_apply]
  rfl

/-- One cycle of a running command leaves what its end computes. -/
theorem finish_advance (task : Task) (left : Nat) (s : State) :
    ∃ task', (advance task left s).running = some ⟨task', left⟩ ∧
      finish task' (advance task left s) = finish task s := by
  cases task with
  | unit i => exact ⟨.unit i, rfl, finish_setRunning _ _ s⟩
  | enc rnd k =>
    rw [advance]
    split
    next h =>
      have hleft : s.r - rnd = s.r - (rnd + 1) + 1 := by omega
      refine ⟨.enc (rnd + 1) (k + 2), rfl, ?_⟩
      rw [finish_setRunning, finish, finish, hleft, encRounds]
      rfl
    next => exact ⟨.enc rnd k, rfl, finish_setRunning _ _ s⟩
  | dec rnd k =>
    rw [advance]
    split
    next h =>
      have hleft : s.r - rnd = s.r - (rnd + 1) + 1 := by omega
      refine ⟨.dec (rnd + 1) (k - 2), rfl, ?_⟩
      rw [finish_setRunning, finish, finish, hleft, decRounds]
      rfl
    next => exact ⟨.dec rnd k, rfl, finish_setRunning _ _ s⟩
  | ksrun q =>
    rw [advance]
    split
    next h => exact ⟨.ksrun (ksFill s q), rfl, by rw [finish_setRunning, finish, finish, ksRest_ksFill h]⟩
    next hfill =>
      split
      next h => exact ⟨.ksrun (ksMix s q), rfl, by rw [finish_setRunning, finish, finish, ksRest_ksMix hfill h]⟩
      next => exact ⟨.ksrun q, rfl, finish_setRunning _ _ s⟩

/-- A bare clock edge. -/
theorem step_of_clock {s : State} {rest : List Event} (h : s.inputs = .clock :: rest) :
    step s = .next ((clockEdge s).afterInput rest) := by
  rw [step_of_input h, stepEvent, clockEdge_afterInput]

/-- A running command left alone for the cycles it has left is finished. -/
theorem steps_of_clocks {n : Nat} {s : State} {q : Running} {rest : List Event} (hr : s.running = some q)
    (hl : q.left = n + 1) (hi : s.inputs = List.replicate (n + 1) .clock ++ rest) :
    steps (n + 1) s = .next ((finish q.task s).afterInput rest) := by
  induction n generalizing s q with
  | zero =>
    rw [steps, step_of_clock hi, clockEdge_of_finish hr (by omega)]
    rfl
  | succ n ih =>
    obtain ⟨task', hrun, hfin⟩ := finish_advance q.task (q.left - 1) s
    have hedge := clockEdge_of_advance hr (by omega)
    rw [steps, step_of_clock hi, hedge]
    refine (ih (s := (advance q.task (q.left - 1) s).afterInput _) hrun (Nat.sub_eq_of_eq_add hl) rfl).trans ?_
    rw [afterInput_eq_withPort _ (_ ++ _), finish_withPort, hfin]
    rfl

/-! ## The host at the edges of a running command -/

/-- A command-level event while a command runs is dropped with ERR_BUSY. -/
theorem commandEvent_of_busy {s : State} (h : s.running ≠ none) (v : Word) :
    commandEvent v s = .next ((s.respond .okWrite).recordErr .busy) := by
  cases hd : decode v with
  | error e =>
    simp only [commandEvent, hd, (busy_iff s).2 h, if_true]
  | ok i =>
    simp only [commandEvent, hd, exec_eq_issue]
    exact issue_of_busy _ _ h

/-- A write while a command runs touches the interrupt enables, DONE and ERR only, and sets no DONE. -/
theorem writeAccess_of_running {s : State} (h : s.running ≠ none) (r : Reg) (v : Word) :
    ∃ ieDone ieErr done err, writeAccess r v s = { s with ieDone := ieDone, ieErr := ieErr, done := done, err := err } ∧
      (s.done = false → done = false) := by
  obtain ⟨-, -, -, he⟩ | ⟨hidle | rfl | rfl, he⟩ := writeAccess_cases r v s
  · exact ⟨_, _, s.done, _, he, id⟩
  · exact absurd hidle h
  · exact ⟨_, _, s.done, _, he, id⟩
  · exact ⟨_, _, _, _, he, fun hd => State.writeStatus_done_of_clear hd v⟩

/-- At an edge that leaves a command running, whatever the host does there but reset touches the interrupt enables,
DONE, ERR and the port's own fields only, and sets no DONE (`70_reset_and_hazards.md` R278). -/
theorem step_of_running {s : State} {e : Event} {rest : List Event} (h : (clockEdge s).running ≠ none)
    (he : ∀ a, e ≠ .rst a) (hi : s.inputs = e :: rest) :
    ∃ t, step s = .next t ∧ ((clockEdge s).done = false → t.done = false) ∧ t = { clockEdge s with
      inputs := rest, response := t.response, ieDone := t.ieDone, ieErr := t.ieErr, done := t.done, err := t.err
      freeReads := t.freeReads } := by
  cases e with
  | clock => exact ⟨_, step_of_clock hi, id, rfl⟩
  | rst a => exact absurd rfl (he a)
  | command v =>
    exact ⟨_, (step_of_command hi).trans (commandEvent_of_busy (s := (clockEdge s).afterInput rest) h v), id, rfl⟩
  | access a =>
    refine ⟨_, step_of_access hi, ?_⟩
    obtain ⟨x, n, ha⟩ | ⟨addr, v, -, -, ha⟩ := performAccess_cases a ((clockEdge s).afterInput rest)
    · rw [ha]; exact ⟨id, rfl⟩
    · obtain ⟨_, _, _, _, hw, hdone⟩ :=
        writeAccess_of_running (s := (clockEdge s).afterInput rest) h (regAt _ addr) v
      rw [ha, hw]
      exact ⟨hdone, rfl⟩

/-- `t` holds the command that `q` is in `s`, `n` cycles further, with DONE still 0 and what the checks read as
before. -/
structure State.RunsOn (s : State) (q : Running) (n : Nat) (t : State) : Prop where
  running : ∃ p, t.running = some p ∧ p.task.op = q.task.op ∧ p.left + n = q.left
  done : t.done = false
  check : ∀ i, check i t = check i s

/-- One edge of a running command that leaves cycles, whatever the host does there but reset. -/
theorem step_runsOn {s : State} {q : Running} {e : Event} {rest : List Event} (hr : s.running = some q)
    (hl : 2 ≤ q.left) (hd : s.done = false) (he : ∀ a, e ≠ .rst a) (hi : s.inputs = e :: rest) :
    ∃ t, step s = .next t ∧ s.RunsOn q 1 t ∧ t.inputs = rest := by
  obtain ⟨task', hop, g, g', rule, hedge⟩ := clockEdge_of_running hr hl
  have hrun : (clockEdge s).running ≠ none := by rw [hedge]; exact Option.some_ne_none _
  obtain ⟨t, hstep, hdone, ht⟩ := step_of_running hrun he hi
  rw [hedge] at ht hdone
  refine ⟨t, hstep, ⟨⟨⟨task', q.left - 1⟩, ?_, hop, Nat.sub_add_cancel (by omega)⟩, hdone hd, fun i => ?_⟩, ?_⟩
  · rw [ht]
  · rw [ht]; exact check_congr rfl rfl rfl i
  · rw [ht]

/-- A running command goes on at every edge but its last, whatever the host does there but reset. -/
theorem steps_runsOn {events rest : List Event} {s : State} {q : Running} (hr : s.running = some q)
    (hl : events.length < q.left) (hd : s.done = false) (he : ∀ a, .rst a ∉ events) (hi : s.inputs = events ++ rest) :
    ∃ t, steps events.length s = .next t ∧ s.RunsOn q events.length t ∧ t.inputs = rest := by
  induction events generalizing s q with
  | nil => exact ⟨s, rfl, ⟨⟨q, hr, rfl, rfl⟩, hd, fun _ => rfl⟩, hi⟩
  | cons e es ih =>
    rw [List.length_cons] at hl ⊢
    obtain ⟨u, hstep, ⟨⟨p, hrun, hop, hleft⟩, hdone, hcheck⟩, hin⟩ :=
      step_runsOn hr (by omega) hd (fun a ha => he a (ha ▸ List.mem_cons_self)) hi
    obtain ⟨t, hsteps, ⟨⟨p', hrun', hop', hleft'⟩, hdone', hcheck'⟩, hin'⟩ :=
      ih hrun (by omega) hdone (fun a ha => he a (List.mem_cons_of_mem _ ha)) hin
    refine ⟨t, ?_, ⟨⟨p', hrun', hop'.trans hop, by omega⟩, hdone', fun i => (hcheck' i).trans (hcheck i)⟩, hin'⟩
    rw [steps, hstep]
    exact hsteps

/-- The end of a command whose checks pass sets DONE (`10_state.md` R50). -/
theorem finish_done {task : Task} {s : State} (hc : check task.op s = none) : (finish task s).done = true := by
  cases task with
  | unit i => rw [finish_unit_of_check (show check i s = none from hc)]; rfl
  | _ => rfl

theorem steps_succ {n : Nat} {s t u : State} (ht : steps n s = .next t) (hu : step t = .next u) :
    steps (n + 1) s = .next u := by
  induction n generalizing s with
  | zero =>
    obtain rfl := Host.Outcome.next.inj ht
    rw [steps, hu]
    rfl
  | succ n ih =>
    rw [steps] at ht ⊢
    cases hs : step s with
    | next w => rw [hs] at ht; exact ih ht
    | fault r => rw [hs] at ht; cases ht
    | refused r => rw [hs] at ht; cases ht

/-- STATUS shows BUSY at bit 0 and DONE at bit 1 (`10_state.md` R33). -/
theorem getLsbD_statusImage (s : State) :
    (statusImage s).getLsbD 0 = s.busy ∧ (statusImage s).getLsbD 1 = s.done := by
  have hflag : ∀ b pos, flagAt b pos = bitAt b pos := fun _ _ => rfl
  simp [statusImage, hflag]

end Sys2Proof.Machine
end

section
/-! The statements about the encoding and the commands (`30_encoding.md`), settled. -/

open Sys2Proof Sys2Proof.Machine

/-- Settles O1: the fields of a command's word are its operands, and the word meets its row's mask. -/
theorem decodeEncodeRoundTrip : Obligations.DecodeEncodeRoundTrip := fun _ hw => decode_encode hw

/-- Settles O2: a word that meets its row's mask is put together again from its opcode and its fields. -/
theorem decodedWordHasOneMeaning : Obligations.DecodedWordHasOneMeaning :=
  fun _ _ h => ⟨wellFormed_of_decode h, encode_of_decode h⟩

/-- Settles O3: each word is the encoding of its command. -/
theorem specExampleWordsDecode : Obligations.SpecExampleWordsDecode :=
  ⟨decode_encode (i := .nbidx true true false) rfl, decode_encode (i := .rulebit 110 false true false) rfl,
    decode_encode (i := .castep 90 .zero) rfl, decode_encode (i := .mload .A true) rfl,
    decode_encode (i := .mxp .B 1) rfl, decode_encode (i := .mstep .A 30) rfl, decode_encode (i := .ksrun) rfl,
    decode_encode (i := .ernd 0) rfl, decode_encode (i := .drnd 1) rfl, decode_encode (i := .enc) rfl⟩

/-- Settles O4: no row of the table has the opcode, and the value is refused before any register is read. -/
theorem undefinedOpcodeRefused : Obligations.UndefinedOpcodeRefused := by
  intro s v rest e hidle hop he hi
  have hnone : rowMask (opField v) = none := by
    rw [opField_eq_mod]
    exact rowMask_of_gap hop
  exact step_of_decode_error hidle (decode_of_undefined hnone) he hi

/-- Settles O5: the row's mask decides between the command that the fields give and the refusal. -/
theorem reservedBitsRefused : Obligations.ReservedBitsRefused := by
  intro s v m k rest e hidle hrow hop he hi
  rw [← opField_eq_mod] at hop
  have hmask := rowMask_of_mem_opcodeRows hrow
  obtain ⟨i, hbuild, hopcode⟩ := buildInstr_of_rowMask hmask v
  rw [← hop] at hmask hbuild
  have hdec := decode_of_defined hmask hbuild
  rw [hop, BitVec.ofNat_toNat, BitVec.setWidth_eq] at hdec
  split
  next hv => exact ⟨i, by rw [hdec, if_pos hv], hopcode⟩
  next hv =>
    rw [if_neg hv] at hdec
    exact ⟨hdec, step_of_decode_error hidle hdec he hi⟩

/-- Settles O10: the order of the checks is that of `refusalCode`, which is what `issueWord` follows. -/
theorem cmdWriteChecksInOrder : Obligations.CmdWriteChecksInOrder := by
  intro s v rest hi u
  have hstep := step_of_write hi rfl
  have hreg : regAt s.params 0x020 = .cmd := rfl
  rw [hreg] at hstep
  split
  next hbusy =>
    rw [hstep, writeAccess_of_busy (s := u.afterInput rest) hbusy (by decide) (by decide)]
    rfl
  next hidle =>
    have hidle : (u.afterInput rest).running = none := not_not.1 hidle
    rw [writeAccess_of_idle hidle] at hstep
    split
    next code hcode =>
      rw [hstep, writeReg, issueWord_of_refused (s := u.afterInput rest) hcode]
      rfl
    next hnone =>
      obtain ⟨i, hd, hc⟩ := decode_of_not_refused (s := u.afterInput rest) hnone
      rw [writeReg, issueWord_of_accepted hd hc, accept_frame] at hstep
      exact ⟨_, hstep, Option.some_ne_none _, rfl⟩

/-- Settles O11: the write is the acceptance of the command it decodes to. -/
theorem acceptanceStartsCommand : Obligations.AcceptanceStartsCommand := by
  intro s v i rest hidle hd hpass hi
  have hc : check i (s.afterInput rest) = none := by
    rw [← hpass, ← refusalCode_of_decode hd]
    rfl
  have hstep := step_of_idle_cmd_write hidle hi
  rw [issueWord_of_accepted hd hc] at hstep
  have hframe := accept_frame i (s.afterInput rest)
  have hlat : latency i (s.afterInput rest) = latency i s := by cases i <;> rfl
  refine ⟨_, ⟨startTask i (s.afterInput rest), latency i s⟩, hstep, ?_, startTask_op i _, rfl, ?_, ?_,
    accept_schedValid i _, fun r hs hr => ?_⟩
  · rw [State.respond_running, hframe, hlat]
  · rw [State.respond_busy, hframe]; rfl
  · rw [State.respond_done, hframe]
  · rw [readReg_respond, readReg_accept _ hs hr, readReg_afterInput]

/-- Settles O18: a refusal touches STATUS only, and an accepted command its write set and STATUS. -/
theorem onlyTheWriteSetChanges : Obligations.OnlyTheWriteSetChanges := by
  intro i s t r h hs hr
  rw [exec_eq_issue] at h
  obtain ⟨-, rfl⟩ | ⟨code, -, -, rfl⟩ | ⟨-, hc, rfl⟩ := issue_cases h
  · exact readReg_of_control hs rfl
  · exact readReg_of_control hs rfl
  · exact (readReg_of_control hs rfl).trans (readReg_commandEffect s hc hs hr)

/-- Settles O6: the command-level event of a value that decodes is `exec` of the command. -/
theorem stepRunsDecodedCommand : Obligations.StepRunsDecodedCommand := by
  intro s v rest i hi hd
  have hstep : step s = exec i ((clockEdge s).answered rest .okWrite none) := by
    rw [step_of_command hi, commandEvent, hd]
    rfl
  exact ⟨hstep, fun hidle => by rw [hstep, clockEdge_idle hidle]⟩

/-- Settles O16: checks 3 and 4, in that order. -/
theorem roundsOrKeylenRefused : Obligations.RoundsOrKeylenRefused := by
  intro s i hidle
  refine ⟨fun hbad hi => ?_, fun hR hbad hi => ?_⟩
  · have hrounds : roundsCheck s = some .rounds := if_pos hbad
    have hc : check i s = some .rounds := by
      rcases hi with rfl | rfl | rfl
      · rw [check, ksrunCheck, hrounds, Option.some_or]
      · exact hrounds
      · exact hrounds
    exact exec_of_refused hidle hc
  · rw [← kmax_eq] at hbad
    have hc : check i s = some .keylen := by
      rw [hi, check, ksrunCheck, (roundsCheck_eq_none_iff s).2 hR, Option.none_or]
      exact if_pos hbad
    exact exec_of_refused hidle hc

/-- Settles O17: check 5 of each command. -/
theorem keyIndexOutOfRangeRefused : Obligations.KeyIndexOutOfRangeRefused := by
  intro s i h kidx hidle hbad
  have hc : check i s = some .kidx := by
    rcases hbad with ⟨hk, rfl | rfl⟩ | ⟨hk, rfl⟩ | ⟨hk, rfl⟩ <;> exact if_pos hk
  exact exec_of_refused hidle hc

/-- Settles O12: acceptance and each edge leave what the command's end computes, which is what `exec` does at once. -/
theorem writeThenClocksIsExec : Obligations.WriteThenClocksIsExec := by
  intro s v i rest hidle hd hc hi
  have hwrite := step_of_idle_cmd_write hidle hi
  obtain ⟨n, hn⟩ : ∃ n, latency i s = n + 1 := ⟨latency i s - 1, (Nat.sub_add_cancel (one_le_latency i s)).symm⟩
  rw [hn] at hwrite ⊢
  set clocks := List.replicate (n + 1) Event.clock ++ rest
  have hc' : check i (s.afterInput clocks) = none := (check_congr rfl rfl rfl i).trans hc
  rw [issueWord_of_accepted hd hc', afterInput_eq_withPort, accept_withPort] at hwrite
  refine ⟨(commandEffect i s).complete, ?_, ?_⟩
  · rw [exec_eq_issue, hc, issue_of_accepted _ hidle]
  · have hrun : (accept i s).running = some ⟨startTask i s, latency i s⟩ := by rw [accept_frame]
    have hclocks := steps_of_clocks (s := (accept i s).withPort clocks (some .okWrite)) hrun hn rfl
    rw [finish_withPort, finish_accept hc] at hclocks
    rw [steps, hwrite]
    exact hclocks

/-- Settles O13: the edges before the last leave the command running, and the last one ends it. -/
theorem busyFallsAfterLatency : Obligations.BusyFallsAfterLatency := by
  intro s q events last rest hr hd hc hl hreset hi
  obtain ⟨u, hsteps, ⟨⟨p, hrun, hop, hleft⟩, -, hcheck⟩, hin⟩ := steps_runsOn hr (by omega) hd hreset hi
  have hedge : clockEdge u = finish p.task u := clockEdge_of_finish hrun (by omega)
  have hidle : (clockEdge u).running = none := hedge ▸ finish_running p.task u
  have hbusy : (clockEdge u).busy = false := (busy_false_iff _).2 hidle
  have hdone : (clockEdge u).done = true := hedge ▸ finish_done (by rw [hop, hcheck, hc])
  rw [hl]
  refine ⟨fun n hn => ?_, ?_, ?_⟩
  · have hlen : (events.take n).length = n := List.length_take_of_le (by omega)
    have hsplit : s.inputs = events.take n ++ (events.drop n ++ last :: rest) := by
      rw [← List.append_assoc, List.take_append_drop, hi]
    obtain ⟨t, hsteps, ⟨⟨p, hrun, hop, hleft⟩, hdone, -⟩, -⟩ :=
      steps_runsOn hr (by omega) hd (fun a ha => hreset a (List.mem_of_mem_take ha)) hsplit
    rw [hlen] at hsteps hleft
    exact ⟨t, p, hsteps, hrun, hop, hleft.trans hl, hdone⟩
  · rintro rfl
    exact ⟨_, steps_succ hsteps (step_of_clock hin), hbusy, hdone⟩
  · rintro rfl
    obtain ⟨hbit0, hbit1⟩ := getLsbD_statusImage (clockEdge u)
    have hread := step_of_read hin rfl (inFlight_of_idle hidle _)
    exact ⟨_, _, steps_succ hsteps hread, hbusy, hdone, rfl, hbit0.trans hbusy, hbit1.trans hdone⟩

end

section
/-! Laws of a command that an idle block carries out, and the rule bit as a number. -/

namespace Sys2Proof.Machine

/-- A command that an idle block accepts has its effect and sets DONE; the sequencer stays idle. -/
theorem exec_of_accepted {i : Instr} {s : State} (hr : s.running = none) (hc : check i s = none) :
    exec i s = .next ((commandEffect i s).setDone true) := by
  have hidle : (commandEffect i s).running = none := by rw [commandEffect_frame, hr]
  have hcomplete : (commandEffect i s).complete = (commandEffect i s).setDone true := by
    rw [complete_eq, ← hidle, State.setDone]
  rw [exec_eq_issue, hc, issue_of_accepted _ hr, hcomplete]

/-- The rule bit of weight `2 ^ idx`, in arithmetic (`40_neighborhood.md` R131). -/
theorem ruleBit_toNat (rule : Rule) (idx : Nat) : (ruleBit rule idx).toNat = rule.toNat / 2 ^ idx % 2 :=
  Nat.toNat_testBit rule.toNat idx

end Sys2Proof.Machine
end

section
/-! The statements about the neighbourhood-index commands (`40_neighborhood.md`), settled. -/

open Sys2Proof Sys2Proof.Machine

/-- Settles O20: no check refuses NBIDX, and its effect is the index into RES. -/
theorem nbidxWritesIndex : Obligations.NbidxWritesIndex :=
  fun _ _ _ _ hr => exec_of_accepted hr rfl

/-- Settles O21: no check refuses RULEBIT, and the bit it writes into RES is the rule's digit of weight `2 ^ idx`. -/
theorem rulebitWritesRuleBit : Obligations.RulebitWritesRuleBit := by
  intro s rule l c r hr
  have hbit := ruleBit_toNat rule (index l c r)
  rw [exec_of_accepted hr rfl, commandEffect, hbit]
  rfl

end

section
/-! Laws of CASTEP and of the elementary automaton (`41_elementary_ca.md`): its neighbours in arithmetic, its extremal
rules, and its bit-parallel form. -/

namespace Sys2Proof.Machine

/-- CASTEP on an idle block: no check refuses it (`41_elementary_ca.md` R143). -/
theorem exec_castep {s : State} (hr : s.running = none) (rule : Rule) (bnd : Boundary) :
    exec (.castep rule bnd) s = .next { s with car := ca s.w s.car rule bnd, lastRule := rule, done := true } :=
  exec_of_accepted hr rfl

/-! ## The neighbours of a cell and the rule bits -/

theorem leftCell_periodic {w : Nat} (hpos : 0 < w) (x : Word) (c : Nat) :
    leftCell w .periodic x c = x.getLsbD ((c + (w - 1)) % w) := by
  rw [leftCell, Nat.add_sub_assoc hpos]

theorem rightCell_zero {w : Nat} (hpos : 0 < w) (x : Word) (c : Nat) :
    rightCell w .zero x c = if c + 1 = w then false else x.getLsbD (c + 1) := by
  have hlast : c = w - 1 ↔ c + 1 = w := by omega
  simp only [rightCell, hlast]

theorem ruleBit_rule0 (idx : Nat) : ruleBit 0 idx = false := BitVec.getLsbD_zero

theorem ruleBit_rule255 (l c r : Bool) : ruleBit 255 (index l c r) = true := by revert l c r; decide

theorem ruleBit_rule240 (l c r : Bool) : ruleBit 240 (index l c r) = l := by revert l c r; decide

theorem ruleBit_rule170 (l c r : Bool) : ruleBit 170 (index l c r) = r := by revert l c r; decide

theorem ruleBit_rule51 (l c r : Bool) : ruleBit 51 (index l c r) = !c := by revert l c r; decide

/-- An index below 8 is that of a neighbourhood exactly when each of its bits is the cell it stands for. -/
theorem testBits_eq_index (l c r : Bool) {idx : Nat} (h : idx < 8) :
    ((idx.testBit 2 == l) && (idx.testBit 1 == c) && (idx.testBit 0 == r)) = decide (idx = index l c r) := by
  revert l c r idx
  decide

/-! ## The extremal rules -/

theorem ca_rule0 {w : Nat} (hw : w ≤ 64) (x : Word) (bnd : Boundary) : ca w x 0 bnd = 0 := by
  refine BitVec.eq_of_getLsbD_eq fun c _ => ?_
  rw [getLsbD_ca hw, ruleBit_rule0, Bool.and_false]
  exact BitVec.getLsbD_zero.symm

theorem ca_rule255 {w : Nat} (hw : w ≤ 64) (x : Word) (bnd : Boundary) :
    ca w x 255 bnd = BitVec.ofNat 64 (2 ^ w - 1) := by
  refine BitVec.eq_of_getLsbD_eq fun c hc => ?_
  rw [getLsbD_ca hw, ruleBit_rule255, BitVec.getLsbD_ofNat, Nat.testBit_two_pow_sub_one]
  simp [hc]

/-! ## The bit-parallel form -/

/-- Lv of `41_elementary_ca.md` R145: the left neighbours of all cells. -/
def leftCells (w : Nat) (bnd : Boundary) (x : Word) : Word :=
  match bnd with
  | .periodic => trunc w (x <<< 1) ||| x >>> (w - 1)
  | .zero => trunc w (x <<< 1)

/-- Rv of `41_elementary_ca.md` R145: the right neighbours of all cells. -/
def rightCells (w : Nat) (bnd : Boundary) (x : Word) : Word :=
  match bnd with
  | .periodic => x >>> 1 ||| trunc w (x <<< (w - 1))
  | .zero => x >>> 1

/-- A literal of the bit-parallel form: the W cells of `v`, or their complement. -/
def literal (w : Nat) (positive : Bool) (v : Word) : Word := if positive then v else trunc w (~~~v)

/-- The product of `41_elementary_ca.md` R145: the cells whose neighbourhood has index `idx`. -/
def cellsOfIndex (w : Nat) (bnd : Boundary) (x : Word) (idx : Nat) : Word :=
  literal w (idx.testBit 2) (leftCells w bnd x) &&& literal w (idx.testBit 1) x &&&
    literal w (idx.testBit 0) (rightCells w bnd x)

theorem getLsbD_of_fits {w : Nat} {v : Word} (hv : Fits w v) (c : Nat) :
    v.getLsbD c = (decide (c < w) && v.getLsbD c) := by
  by_cases hc : c < w
  · simp [hc]
  · simp [hc, fits_iff.1 hv c (Nat.not_lt.1 hc)]

/-- A value fits when its cells are given below W only. -/
theorem fits_of_cells {w : Nat} {v : Word} {f : Nat → Bool} (h : ∀ c, v.getLsbD c = (decide (c < w) && f c)) :
    Fits w v :=
  fits_iff.2 fun c hc => by simp [h, Nat.not_lt.2 hc]

theorem getLsbD_literal {w : Nat} (hw : w ≤ 64) {v : Word} (hv : Fits w v) (positive : Bool) (c : Nat) :
    (literal w positive v).getLsbD c = (decide (c < w) && positive == v.getLsbD c) := by
  cases positive with
  | true => rw [literal, if_pos rfl, getLsbD_of_fits hv]; simp
  | false =>
    rw [literal, if_neg Bool.false_ne_true, getLsbD_trunc, BitVec.getLsbD_not]
    by_cases hc : c < w
    · simp [hc, lt_of_lt_of_le hc hw]
    · simp [hc]

/-- A cell of an OR over selected terms is set when it is set at the start or in a selected term. -/
theorem getLsbD_foldl_or (p : Nat → Bool) (term : Nat → Word) (l : List Nat) (acc : Word) (c : Nat) :
    (l.foldl (fun acc i => if p i then acc ||| term i else acc) acc).getLsbD c =
      (acc.getLsbD c || l.any fun i => p i && (term i).getLsbD c) := by
  induction l generalizing acc with
  | nil => simp
  | cons i l ih =>
    rw [List.foldl_cons, ih, List.any_cons, ← Bool.or_assoc]
    cases p i <;> simp

theorem ca_rule51 {w : Nat} (hw : w ≤ 64) (x : Word) (bnd : Boundary) : ca w x 51 bnd = trunc w (~~~x) :=
  BitVec.eq_of_getLsbD_eq fun c hc => by
    rw [getLsbD_ca hw, ruleBit_rule51, getLsbD_trunc, BitVec.getLsbD_not, decide_eq_true hc, Bool.true_and]

section
variable {w : Nat} (hpos : 0 < w) (hw : w ≤ 64) {x : Word} (hx : Fits w x)
include hpos hw hx

theorem getLsbD_leftCells (bnd : Boundary) (c : Nat) :
    (leftCells w bnd x).getLsbD c = (decide (c < w) && leftCell w bnd x c) := by
  have hshift : (trunc w (x <<< 1)).getLsbD c = (decide (c < w) && if c = 0 then false else x.getLsbD (c - 1)) := by
    rw [getLsbD_trunc, BitVec.getLsbD_shiftLeft]
    grind
  cases bnd with
  | zero => exact hshift
  | periodic =>
    rw [leftCells, BitVec.getLsbD_or, hshift, BitVec.getLsbD_ushiftRight, leftCell_periodic hpos]
    by_cases hc : c = 0
    · subst hc
      simp [hpos, Nat.mod_eq_of_lt]
    · have hout : x.getLsbD (w - 1 + c) = false := fits_iff.1 hx _ (by omega)
      have hleft : c < w → (c + (w - 1)) % w = c - 1 := fun h => by
        rw [show c + (w - 1) = c - 1 + w by omega, Nat.add_mod_right, Nat.mod_eq_of_lt (by omega)]
      grind

theorem getLsbD_rightCells (bnd : Boundary) (c : Nat) :
    (rightCells w bnd x).getLsbD c = (decide (c < w) && rightCell w bnd x c) := by
  have hout : w ≤ c + 1 → x.getLsbD (c + 1) = false := fits_iff.1 hx (c + 1)
  cases bnd with
  | zero =>
    rw [rightCells, BitVec.getLsbD_ushiftRight, rightCell_zero hpos, Nat.add_comm 1 c]
    grind
  | periodic =>
    rw [rightCells, BitVec.getLsbD_or, BitVec.getLsbD_ushiftRight, getLsbD_trunc, BitVec.getLsbD_shiftLeft, rightCell,
      Nat.add_comm 1 c]
    rcases Nat.lt_trichotomy (c + 1) w with hc | hc | hc
    · rw [Nat.mod_eq_of_lt hc]
      grind
    · rw [hc, Nat.mod_self]
      grind
    · grind

theorem getLsbD_cellsOfIndex (bnd : Boundary) {idx : Nat} (hidx : idx < 8) (c : Nat) :
    (cellsOfIndex w bnd x idx).getLsbD c =
      (decide (c < w) && decide (idx = index (leftCell w bnd x c) (x.getLsbD c) (rightCell w bnd x c))) := by
  have hl := getLsbD_leftCells hpos hw hx bnd
  have hr := getLsbD_rightCells hpos hw hx bnd
  rw [cellsOfIndex, BitVec.getLsbD_and, BitVec.getLsbD_and, getLsbD_literal hw (fits_of_cells hl),
    getLsbD_literal hw hx, getLsbD_literal hw (fits_of_cells hr), hl, hr, ← testBits_eq_index _ _ _ hidx]
  by_cases hc : c < w <;> simp [hc]

/-- Of the eight products only that of a cell's own neighbourhood is set there, so the OR reads the rule's bit. -/
theorem ca_eq_foldl_or (rule : Rule) (bnd : Boundary) :
    ca w x rule bnd =
      (List.range 8).foldl (fun acc idx => if ruleBit rule idx then acc ||| cellsOfIndex w bnd x idx else acc) 0 := by
  refine BitVec.eq_of_getLsbD_eq fun c _ => ?_
  have hzero : (0 : Word).getLsbD c = false := BitVec.getLsbD_zero
  rw [getLsbD_ca hw, getLsbD_foldl_or, hzero, Bool.false_or, Bool.eq_iff_iff]
  have hlt := index_lt (leftCell w bnd x c) (x.getLsbD c) (rightCell w bnd x c)
  set n := index (leftCell w bnd x c) (x.getLsbD c) (rightCell w bnd x c)
  have hterm : ∀ idx < 8, (cellsOfIndex w bnd x idx).getLsbD c = (decide (c < w) && decide (idx = n)) :=
    fun _ h => getLsbD_cellsOfIndex hpos hw hx bnd h c
  simp only [List.any_eq_true, List.mem_range, Bool.and_eq_true]
  constructor
  · rintro ⟨hc, hbit⟩
    exact ⟨n, hlt, hbit, by simp [hterm n hlt, of_decide_eq_true hc]⟩
  · rintro ⟨idx, h8, hbit, hcell⟩
    simp only [hterm idx h8, Bool.and_eq_true, decide_eq_true_eq] at hcell
    obtain ⟨hc, rfl⟩ := hcell
    exact ⟨decide_eq_true hc, hbit⟩

theorem ca_rule240 (bnd : Boundary) : ca w x 240 bnd = leftCells w bnd x :=
  BitVec.eq_of_getLsbD_eq fun c _ => by rw [getLsbD_ca hw, ruleBit_rule240, getLsbD_leftCells hpos hw hx]

theorem ca_rule170 (bnd : Boundary) : ca w x 170 bnd = rightCells w bnd x :=
  BitVec.eq_of_getLsbD_eq fun c _ => by rw [getLsbD_ca hw, ruleBit_rule170, getLsbD_rightCells hpos hw hx]

end

end Sys2Proof.Machine
end

section
/-! The statements about the elementary automaton (`41_elementary_ca.md`), settled. -/

open Sys2Proof Sys2Proof.Machine

/-- Settles O22: CASTEP's result is `ca`, whose cells are given by the rule bit of the neighbourhood. -/
theorem castepComputesEveryCell : Obligations.CastepComputesEveryCell := by
  intro s rule bnd hr
  have hpos : 0 < s.w := Width.bits_pos s.params.width
  refine ⟨_, exec_castep hr rule bnd, rfl, fits_iff.1 (fits_ca s.w_le _ _ _), fun c hc => ?_⟩
  have hcell := getLsbD_ca s.w_le s.car rule bnd c
  rw [show decide (c < s.w) = true from decide_eq_true hc, Bool.true_and] at hcell
  cases bnd with
  | periodic =>
    rw [leftCell_periodic hpos] at hcell
    exact hcell
  | zero =>
    rw [rightCell_zero hpos] at hcell
    exact hcell

/-- Settles O23: rule 0 has no bit set and rule 255 has all eight. -/
theorem castepExtremalRules : Obligations.CastepExtremalRules := by
  intro s bnd hr
  constructor
  · rw [exec_castep hr, ca_rule0 s.w_le]
  · rw [exec_castep hr, ca_rule255 s.w_le]
    rfl

/-- Settles O24: each cell lies in exactly one of the eight products, that of its neighbourhood's index. -/
theorem caBitParallelForm : Obligations.CaBitParallelForm := by
  intro width x rule bnd hx
  have hpos := Width.bits_pos width
  have hw := Width.bits_le width
  cases bnd <;>
    exact ⟨ca_eq_foldl_or hpos hw hx rule _, ca_rule240 hpos hw hx _, ca_rule170 hpos hw hx _, ca_rule51 hw x _⟩

end

section
/-! Laws of the second-order-automaton commands (`42_meca.md`) on an idle block, one equation per command for both
halves. -/

namespace Sys2Proof.Machine

/-- Check 5 of `30_encoding.md` R112 passes for every entry of RK[]. -/
theorem kidxCheck_of_lt {s : State} {kidx : Nat} (h : kidx < 2 * s.params.rmax) : kidxCheck s kidx = none :=
  if_neg (Nat.not_le.2 h)

/-- MLOAD on an idle block: the half is the seed of its pair (`42_meca.md` R151). -/
theorem exec_mload {s : State} (hr : s.running = none) (h : Half) (rev : Bool) :
    exec (.mload h rev) s = .next ((s.setHalf h (seed (s.pair h).1 (s.pair h).2 rev)).setDone true) :=
  exec_of_accepted hr rfl

/-- MSTORE on an idle block: the half goes to its pair in the order of ORD (`42_meca.md` R152). -/
theorem exec_mstore {s : State} (hr : s.running = none) (h : Half) (ord : StoreOrder) :
    exec (.mstore h ord) s = .next ((storeHalf h ord s).setDone true) :=
  exec_of_accepted hr rfl

/-- MXS on an idle block, for a key index in range (`42_meca.md` R154). -/
theorem exec_mxs {s : State} {kidx : Nat} (hr : s.running = none) (hk : kidx < 2 * s.params.rmax) (h : Half) :
    exec (.mxs h kidx) s = .next ((s.setHalf h ((s.half h).xorState (s.rkAt kidx))).setDone true) :=
  exec_of_accepted hr (kidxCheck_of_lt hk)

/-- MXP on an idle block, for a key index in range (`42_meca.md` R155). -/
theorem exec_mxp {s : State} {kidx : Nat} (hr : s.running = none) (hk : kidx < 2 * s.params.rmax) (h : Half) :
    exec (.mxp h kidx) s = .next ((s.setHalf h ((s.half h).xorPrev (s.rkAt kidx))).setDone true) :=
  exec_of_accepted hr (kidxCheck_of_lt hk)

/-- MSTEP on an idle block: one generation of the half under the rule (`42_meca.md` R157). -/
theorem exec_mstep {s : State} (hr : s.running = none) (h : Half) (rule : Rule) :
    exec (.mstep h rule) s =
      .next (((s.setHalf h (mecaStep s.w (s.half h) rule)).setLastRule rule).setDone true) :=
  exec_of_accepted hr rfl

end Sys2Proof.Machine
end

section
/-! The statements about the second-order automaton (`42_meca.md`), settled. -/

open Sys2Proof Sys2Proof.Machine

/-- Settles O30: the second step undoes the first on the exchanged generations (`mecaStep_exchange`), and the
setters leave every other field alone. -/
theorem mstepRunsBackwards : Obligations.MstepRunsBackwards := by
  intro s h rule hr
  refine ⟨_, _, exec_mstep hr h rule, exec_mstep (by simpa using hr) h rule, ?_⟩
  simp only [State.setHalf_half, State.setHalf_w, State.setLastRule_half, State.setLastRule_w, State.setDone_half,
    State.setDone_w, if_true, mecaStep_exchange]
  cases h <;> rfl

/-- Settles O25: `seed` of the pair in FWD and in REV order. -/
theorem mloadSplitsSeed : Obligations.MloadSplitsSeed := by
  intro s rev hr
  cases rev <;> exact ⟨exec_mload hr .A _, exec_mload hr .B _⟩

/-- Settles O26: `storeHalf` of each half in each order. -/
theorem mstoreWritesBothOrders : Obligations.MstoreWritesBothOrders := fun _ hr =>
  ⟨exec_mstore hr .A .encrypt, exec_mstore hr .A .decrypt, exec_mstore hr .B .encrypt, exec_mstore hr .B .decrypt⟩

/-- Settles O27: the key index passes check 5, and the effect is `xorState`. -/
theorem mxsXorsCurrentGeneration : Obligations.MxsXorsCurrentGeneration := fun _ _ hr hk =>
  ⟨exec_mxs hr hk .A, exec_mxs hr hk .B⟩

/-- Settles O28: the key index passes check 5, and the effect is `xorPrev`. -/
theorem mxpXorsPreviousGeneration : Obligations.MxpXorsPreviousGeneration := fun _ _ hr hk =>
  ⟨exec_mxp hr hk .A, exec_mxp hr hk .B⟩

/-- Settles O29: the effect is `mecaStep`, and LASTRULE is the rule. -/
theorem mstepIsOneGeneration : Obligations.MstepIsOneGeneration := fun _ rule hr =>
  ⟨exec_mstep hr .A rule, exec_mstep hr .B rule⟩

end

section
/-! Laws of the metamorphic-mux commands (`43_morph.md`) and of one round (`45_block_cipher.md` R201, R202) on an idle
block, and of a list of commands carried out one after another. -/

namespace Sys2Proof.Machine

/-! ## Lists of commands -/

theorem execAll_cons_of_next {i : Instr} {s t : State} (h : exec i s = .next t) (is : List Instr) :
    execAll (i :: is) s = execAll is t := by rw [execAll, h]

/-- A list of commands runs on from where a first list that went through has left the state. -/
theorem execAll_append_of_next {is : List Instr} {s t : State} (h : execAll is s = .next t) (js : List Instr) :
    execAll (is ++ js) s = execAll js t := by
  induction is generalizing s with
  | nil => rw [List.nil_append, Host.Outcome.next.inj h]
  | cons i is ih =>
    cases hi : exec i s with
    | next u =>
      rw [execAll_cons_of_next hi] at h
      rw [List.cons_append, execAll_cons_of_next hi, ih h]
    | fault r => simp [execAll, hi] at h
    | refused r => simp [execAll, hi] at h

/-! ## The rule-selection mux -/

/-- The index state mod 7 is in the pool's range (`43_morph.md` R171), so `sel` never takes its default. -/
theorem pool7_getElem?_mod (x : Word) : pool7[x.toNat % 7]? = some (sel x) := by
  have hlt : x.toNat % 7 < pool7.length := Nat.mod_lt _ (by decide)
  rw [sel, List.getD_eq_getElem _ _ hlt, List.getElem?_eq_getElem hlt]

/-- MSEL on an idle block (`43_morph.md` R172). -/
theorem exec_msel {s : State} (hr : s.running = none) (h : Half) :
    exec (.msel h) s =
      .next (((s.setRes ((sel (s.half h).state).setWidth 64)).setLastRule (sel (s.half h).state)).setDone true) :=
  exec_of_accepted hr rfl

/-- MMORPH on an idle block: one generation of the half under the rule its old state selects (`43_morph.md` R173). -/
theorem exec_mmorph {s : State} (hr : s.running = none) (h : Half) :
    exec (.mmorph h) s =
      .next (((s.setHalf h (morph s.w (s.half h))).setLastRule (sel (s.half h).state)).setDone true) :=
  exec_of_accepted hr rfl

/-! ## One round -/

/-- ERND on an idle block, for a pair of key indexes in range (`45_block_cipher.md` R201). -/
theorem exec_ernd {s : State} {k : Nat} (hr : s.running = none) (hk : k + 1 < 2 * s.params.rmax) :
    exec (.ernd k) s = .next ((encRound k s).setDone true) :=
  exec_of_accepted hr (if_neg (Nat.not_le.2 hk))

/-- DRND on an idle block, for a pair of key indexes in range (`45_block_cipher.md` R202). -/
theorem exec_drnd {s : State} {k : Nat} (hr : s.running = none) (hpos : 1 ≤ k) (hk : k < 2 * s.params.rmax) :
    exec (.drnd k) s = .next ((decRound k s).setDone true) :=
  exec_of_accepted hr (if_neg (not_or.2 ⟨Nat.ne_of_gt hpos, Nat.not_le.2 hk⟩))

/-- The part of an encryption round that one half takes: its key into `state`, then a metamorphic step. -/
def encHalfRound (h : Half) (k : Nat) (s : State) : State :=
  (s.setHalf h (morph s.w ((s.half h).xorState (s.rkAt k)))).setLastRule
    (sel ((s.half h).xorState (s.rkAt k)).state)

/-- The part of a decryption round that one half takes: a metamorphic step, then its key into `prev`. -/
def decHalfRound (h : Half) (k : Nat) (s : State) : State :=
  (s.setHalf h ((morph s.w (s.half h)).xorPrev (s.rkAt k))).setLastRule (sel (s.half h).state)

theorem encRound_eq_halves (k : Nat) (s : State) :
    encRound k s = encHalfRound .B (k + 1) (encHalfRound .A k s) := rfl

theorem decRound_eq_halves (k : Nat) (s : State) :
    decRound k s = decHalfRound .A (k - 1) (decHalfRound .B k s) := rfl

theorem execAll_mxs_mmorph {s : State} {k : Nat} (hr : s.running = none) (hk : k < 2 * s.params.rmax) (h : Half) :
    execAll [.mxs h k, .mmorph h] s = .next ((encHalfRound h k s).setDone true) := by
  rw [execAll_cons_of_next (exec_mxs hr hk h), execAll_cons_of_next (exec_mmorph (by simpa using hr) h)]
  cases h <;> rfl

theorem execAll_mmorph_mxp {s : State} {k : Nat} (hr : s.running = none) (hk : k < 2 * s.params.rmax) (h : Half) :
    execAll [.mmorph h, .mxp h k] s = .next ((decHalfRound h k s).setDone true) := by
  rw [execAll_cons_of_next (exec_mmorph hr h),
    execAll_cons_of_next (exec_mxp (by simpa using hr) (by simpa using hk) h)]
  cases h <;> rfl

/-- MSEL, then MSTEP with the rule it selects: the state after MMORPH but for RES (`43_morph.md` R173). -/
theorem execAll_msel_mstep {s : State} (hr : s.running = none) (h : Half) :
    execAll [.msel h, .mstep h (sel (s.half h).state)] s =
      .next ((((s.setHalf h (morph s.w (s.half h))).setLastRule (sel (s.half h).state)).setDone true).setRes
        ((sel (s.half h).state).setWidth 64)) := by
  rw [execAll_cons_of_next (exec_msel hr h), execAll_cons_of_next (exec_mstep (by simpa using hr) h _)]
  cases h <;> rfl

/-- ERND is HA's part of the round and then HB's, as unit commands (`45_block_cipher.md` R201). -/
theorem exec_ernd_eq_execAll {s : State} {k : Nat} (hr : s.running = none) (hk : k + 1 < 2 * s.params.rmax) :
    exec (.ernd k) s = execAll [.mxs .A k, .mmorph .A, .mxs .B (k + 1), .mmorph .B] s := by
  have hA := execAll_mxs_mmorph hr (Nat.lt_of_succ_lt hk) .A
  have hB := execAll_mxs_mmorph (s := (encHalfRound .A k s).setDone true) hr hk .B
  rw [exec_ernd hr hk, encRound_eq_halves]
  exact ((execAll_append_of_next hA _).trans hB).symm

/-- DRND is HB's part of the round and then HA's, as unit commands (`45_block_cipher.md` R202). -/
theorem exec_drnd_eq_execAll {s : State} {k : Nat} (hr : s.running = none) (hpos : 1 ≤ k)
    (hk : k < 2 * s.params.rmax) :
    exec (.drnd k) s = execAll [.mmorph .B, .mxp .B k, .mmorph .A, .mxp .A (k - 1)] s := by
  have hB := execAll_mmorph_mxp hr hk .B
  have hA := execAll_mmorph_mxp (s := (decHalfRound .B k s).setDone true) (k := k - 1) hr (Nat.sub_lt_of_lt hk) .A
  rw [exec_drnd hr hpos hk, decRound_eq_halves]
  exact ((execAll_append_of_next hB _).trans hA).symm

end Sys2Proof.Machine
end

section
/-! The statements about the rule-selection mux (`43_morph.md`) and the composite commands, settled. -/

open Sys2Proof Sys2Proof.Machine

/-- Settles O37: each composite's unit commands, carried out one after another, lead to the composite's own state. -/
theorem compositesAreUnitCommands : Obligations.CompositesAreUnitCommands := fun _ h _ hr hk =>
  ⟨⟨_, _, exec_mmorph hr h, execAll_msel_mstep hr h, rfl⟩, exec_ernd_eq_execAll hr,
    fun hpos => exec_drnd_eq_execAll hr hpos hk⟩

/-- Settles O31: the rule is `sel` of the half's state, an entry of the pool. -/
theorem mselReadsThePool : Obligations.MselReadsThePool := fun _ h hr =>
  ⟨_, pool7_getElem?_mod _, exec_msel hr h⟩

/-- Settles O32: `morph` is `mecaStep` under `sel` of the old state, an entry of the pool. -/
theorem mmorphStepsUnderSelectedRule : Obligations.MmorphStepsUnderSelectedRule := fun _ h hr =>
  ⟨_, pool7_getElem?_mod _, exec_mmorph hr h⟩

end

section
/-! Laws of the key schedule (`44_key_schedule.md`): the seed constants between rational bounds of e and the golden
ratio, and the loops of KSRUN in closed form. -/

namespace Sys2Proof.Machine

/-! ## The seed constants -/

/-- The first `w` bits of a number that rational bounds enclose (`44_key_schedule.md` R181). -/
theorem floor_mul_two_pow_eq {x lo hi : ℝ} {n w : Nat} (hx : lo ≤ x ∧ x ≤ hi)
    (hn : (n : ℝ) ≤ lo * 2 ^ w ∧ hi * 2 ^ w < n + 1) : ⌊x * 2 ^ w⌋ = (n : Int) := by
  have hpow : (0 : ℝ) ≤ 2 ^ w := by positivity
  rw [Int.floor_eq_iff, Int.cast_natCast]
  exact ⟨hn.1.trans (mul_le_mul_of_nonneg_right hx.1 hpow), (mul_le_mul_of_nonneg_right hx.2 hpow).trans_lt hn.2⟩

theorem exp_one_sub_two_bounds :
    (0.71828182845904523534 : ℝ) ≤ Real.exp 1 - 2 ∧ Real.exp 1 - 2 ≤ (0.71828182845904523537 : ℝ) := by
  obtain ⟨hhi, hlo⟩ := abs_sub_le_iff.1 Real.exp_one_near_20
  constructor <;> linarith

theorem golden_sub_one_bounds :
    (0.618033988749894848204 : ℝ) ≤ (1 + Real.sqrt 5) / 2 - 1 ∧
      (1 + Real.sqrt 5) / 2 - 1 ≤ (0.618033988749894848205 : ℝ) := by
  have hlo : (2.236067977499789696408 : ℝ) ≤ Real.sqrt 5 := Real.le_sqrt_of_sq_le (by norm_num)
  have hhi : Real.sqrt 5 ≤ (2.23606797749978969641 : ℝ) := Real.sqrt_le_iff.2 ⟨by norm_num, by norm_num⟩
  constructor <;> linarith

theorem ksP_eq_floor (width : Width) : ((ksP width).toNat : Int) = ⌊(Real.exp 1 - 2) * 2 ^ width.bits⌋ := by
  refine (floor_mul_two_pow_eq exp_one_sub_two_bounds ?_).symm
  cases width <;> simp only [ksP, Width.bits, BitVec.reduceToNat] <;> norm_num

theorem ksQ_eq_floor (width : Width) :
    ((ksQ width).toNat : Int) = ⌊((1 + Real.sqrt 5) / 2 - 1) * 2 ^ width.bits⌋ := by
  refine (floor_mul_two_pow_eq golden_sub_one_bounds ?_).symm
  cases width <;> simp only [ksQ, Width.bits, BitVec.reduceToNat] <;> norm_num

/-! ## The initial fill -/

/-- P + i*Q modulo 2^W, slot `i` of the schedule after the initial fill (`44_key_schedule.md` R182). -/
def fillWord (width : Width) (i : Nat) : Word :=
  trunc width.bits (ksP width + BitVec.ofNat 64 i * ksQ width)

theorem toNat_fillWord (width : Width) (i : Nat) :
    (fillWord width i).toNat = ((ksP width).toNat + i * (ksQ width).toNat) % 2 ^ width.bits := by
  rw [fillWord, toNat_trunc (Width.bits_le width), BitVec.toNat_add, BitVec.toNat_mul, BitVec.toNat_ofNat,
    Nat.mod_mul_mod, Nat.add_mod_mod, Nat.mod_mod_of_dvd _ (pow_dvd_pow 2 (Width.bits_le width))]

theorem fillWord_zero (width : Width) : fillWord width 0 = ksP width := by
  cases width <;> rfl

theorem fillWord_succ (width : Width) (i : Nat) :
    trunc width.bits (fillWord width i + ksQ width) = fillWord width (i + 1) := by
  refine BitVec.eq_of_toNat_eq ?_
  rw [toNat_trunc (Width.bits_le width), BitVec.toNat_add, toNat_fillWord, toNat_fillWord,
    Nat.mod_mod_of_dvd _ (pow_dvd_pow 2 (Width.bits_le width)), Nat.mod_add_mod, Nat.add_mul, Nat.one_mul, Nat.add_assoc]

/-- A fill step puts slot `n` behind the slots below it. -/
theorem ksFillStep_fillWord (p : Params) (n : Nat) :
    ksFillStep p ⟨n, (List.range n).map (fillWord p.width), 0, 0, 0, 0⟩ =
      ⟨n + 1, (List.range (n + 1)).map (fillWord p.width), 0, 0, 0, 0⟩ := by
  rw [List.range_succ, List.map_append, ksFillStep]
  cases n with
  | zero => rw [List.map_singleton, fillWord_zero]; rfl
  | succ n => simp [fillWord_succ]

/-- `n` fill steps from the start (`44_key_schedule.md` R182). -/
theorem ksFill_iterate (s : State) (n : Nat) :
    (ksFill s)^[n] ksStart = ⟨n, (List.range n).map (fillWord s.params.width), 0, 0, 0, 0⟩ := by
  induction n with
  | zero => rfl
  | succ n ih => rw [Function.iterate_succ_apply', ih, ksFill, ksFillStep_fillWord]

/-- The whole fill: P, then the other slots (`44_key_schedule.md` R189). -/
theorem map_fillWord_range_succ (width : Width) (n : Nat) :
    (List.range (n + 1)).map (fillWord width) = ksP width :: (List.range n).map fun i => fillWord width (i + 1) := by
  rw [List.range_succ_eq_map, List.map_cons, fillWord_zero, List.map_map]
  rfl

/-! ## The mixing passes -/

/-- A pass with both slot indexes 0 mixes slot 0 with KEY[0], and the indexes stay 0 (`44_key_schedule.md` R189). -/
theorem ksMix_slot_zero {s : State} (hn : 1 ≤ ksLength s) (hk : 1 ≤ s.k) (fill : Nat) (x : Word) (xs : List Word)
    (t : Nat) (last : Rule) :
    ksMix s ⟨fill, x :: xs, t, 0, 0, last⟩ =
      ⟨fill, ksPass s.w (s.keyAt 0) x :: xs, t + 1, 0, 0, ksPassRule (s.keyAt 0) x⟩ := by
  rw [ksMix, ksMixStep, slotAdvance_zero hn, slotAdvance_zero hk]
  rfl

/-- Every pass from slot indexes 0 on mixes slot 0 with KEY[0] (`44_key_schedule.md` R189). -/
theorem ksMix_iterate_succ {s : State} (hn : 1 ≤ ksLength s) (hk : 1 ≤ s.k) (fill : Nat) (x : Word) (xs : List Word)
    (t : Nat) (last : Rule) (n : Nat) :
    (ksMix s)^[n + 1] ⟨fill, x :: xs, t, 0, 0, last⟩ =
      ⟨fill, (ksPass s.w (s.keyAt 0))^[n + 1] x :: xs, t + (n + 1), 0, 0,
        ksPassRule (s.keyAt 0) ((ksPass s.w (s.keyAt 0))^[n] x)⟩ := by
  induction n with
  | zero => exact ksMix_slot_zero hn hk fill x xs t last
  | succ n ih =>
    rw [Function.iterate_succ_apply', ih, ksMix_slot_zero hn hk,
      ← Function.iterate_succ_apply' (ksPass s.w (s.keyAt 0))]
    rfl

/-! ## The whole expansion -/

/-- The expansion of a legal key (`44_key_schedule.md` R189). -/
theorem ksRest_ksStart {s : State} (hn : 1 ≤ ksLength s) (hk : 1 ≤ s.k) :
    ksRest s ksStart =
      ⟨ksLength s,
        (ksPass s.w (s.keyAt 0))^[ksPasses s] (ksP s.params.width) ::
          (List.range (ksLength s - 1)).map fun i => fillWord s.params.width (i + 1),
        ksPasses s, 0, 0, ksPassRule (s.keyAt 0) ((ksPass s.w (s.keyAt 0))^[ksPasses s - 1] (ksP s.params.width))⟩ := by
  obtain ⟨m, hm⟩ := Nat.exists_eq_add_of_le' hn
  obtain ⟨p, hp⟩ : ∃ p, ksPasses s = p + 1 := Nat.exists_eq_add_of_le' (by unfold ksPasses; omega)
  have hstart : ksRest s ksStart = (ksMix s)^[ksPasses s] ((ksFill s)^[ksLength s] ksStart) := rfl
  rw [hstart, ksFill_iterate, hm, map_fillWord_range_succ, hp, ksMix_iterate_succ hn hk, Nat.zero_add]
  rfl

/-- RK after the write-back: the schedule where it reaches, and the old entries beyond it (`44_key_schedule.md` R183). -/
theorem ksWriteBack_rkAt (q : KsWork) (s : State) (i : Nat) :
    (ksWriteBack q s).rkAt i = q.sched[i]?.getD (s.rkAt i) := by
  have hfind : (s.rk.insertFrom 0 q.sched).find i = if i < q.sched.length then q.sched[i]? else s.rk.find i := by
    simpa using Memory.find_insertFrom q.sched 0 s.rk i
  change ((s.rk.insertFrom 0 q.sched).find i).getD (s.ramInitial .rk i) = _
  rw [hfind]
  split
  next h => rw [List.getElem?_eq_getElem h]; rfl
  next h => rw [List.getElem?_eq_none (Nat.le_of_not_lt h)]; rfl

end Sys2Proof.Machine
end

section
/-! The statements about the key schedule (`44_key_schedule.md`), settled. -/

open Sys2Proof Sys2Proof.Machine

/-- Settles O33: e - 2 and the golden ratio less 1 lie between rational bounds that share their first W bits. -/
theorem seedConstantsAreFirstBits : Obligations.SeedConstantsAreFirstBits := fun width =>
  ⟨ksP_eq_floor width, ksQ_eq_floor width⟩

/-- Settles O34: both slot advances are 0, so every pass mixes slot 0 with KEY[0]. -/
theorem ksrunClosedForm : Obligations.KsrunClosedForm := by
  intro s hidle hr hk w n passes rule pass
  have hn : 1 ≤ n := (KsWork.Ok.start hr hk).i
  have hrest := ksRest_ksStart hn hk.1
  have hrk (i : Nat) : (ksWriteBack (ksRest s ksStart) s).rkAt i =
      (pass^[passes] (ksP s.params.width) ::
        (List.range (n - 1)).map fun i => fillWord s.params.width (i + 1))[i]?.getD (s.rkAt i) := by
    rw [ksWriteBack_rkAt, hrest]
    rfl
  refine ⟨_, exec_of_accepted hidle ((ksrunCheck_eq_none_iff s).2 ⟨hr, hk⟩), hrk 0, fun i hi hin => ?_,
    fun i hi => ?_, ?_⟩
  · obtain ⟨i, rfl⟩ := Nat.exists_eq_add_of_le' hi
    refine (congrArg BitVec.toNat (hrk (i + 1))).trans ?_
    rw [List.getElem?_cons_succ, List.getElem?_map, List.getElem?_range (by omega)]
    exact toNat_fillWord _ _
  · refine (hrk i).trans ?_
    rw [List.getElem?_eq_none (by simp; omega)]
    rfl
  · have hlast : (ksRest s ksStart).last = rule (pass^[passes - 1] (ksP s.params.width)) := by rw [hrest]; rfl
    rw [← hlast]
    rfl

end

section
/-! Laws of ENC and DEC (`45_block_cipher.md`): the rounds of one half as a fold over its own round keys, the two folds
as inverses of each other, both commands as lists of unit commands, and what each makes of a half's part of the
block. -/

namespace Sys2Proof.Machine

/-! ## The rounds of one half -/

/-- One encryption round of a half under its round key `x` (`45_block_cipher.md` R201). -/
def encStep (w : Nat) (g : HalfRegs) (x : Word) : HalfRegs := morph w (g.xorState x)

/-- One decryption round of a half under its round key `x` (`45_block_cipher.md` R202). -/
def decStep (w : Nat) (g : HalfRegs) (x : Word) : HalfRegs := (morph w g).xorPrev x

/-- The two generations exchanged, which turns the automaton's direction (`42_meca.md` R159). -/
def HalfRegs.exchange (g : HalfRegs) : HalfRegs := ⟨g.prev, g.state⟩

/-- The round keys of half h in the order ENC takes them: the even-offset ones for HA, the odd-offset ones for HB
(`45_block_cipher.md` R208). -/
def State.roundKeys (s : State) (h : Half) : List Word := (List.range s.r).map fun m => s.rkAt (2 * m + h.bit.toNat)

/-- n encryption rounds from key 0 are, on each half, n rounds of that half under its own keys. -/
theorem encRounds_half (n : Nat) (h : Half) (s : State) :
    (encRounds n 0 s).half h =
      (List.range n).foldl (fun g m => encStep s.w g (s.rkAt (2 * m + h.bit.toNat))) (s.half h) := by
  induction n with
  | zero => rfl
  | succ n ih =>
    rw [List.range_succ, List.foldl_append, ← ih, encRounds_succ, Nat.zero_add, encRound_eq, encRounds_w]
    cases h <;> simp only [encRounds_rkAt] <;> rfl

/-- n decryption rounds from key index k are, on each half, n rounds of that half under its own keys. -/
theorem decRounds_half (n k : Nat) (h : Half) (s : State) :
    (decRounds n k s).half h =
      (List.range n).foldl (fun g m => decStep s.w g (s.rkAt (k - (!h.bit).toNat - 2 * m))) (s.half h) := by
  induction n with
  | zero => rfl
  | succ n ih =>
    rw [List.range_succ, List.foldl_append, ← ih, decRounds_succ, decRound_eq, decRounds_w, Nat.sub_right_comm]
    cases h <;> simp only [decRounds_rkAt] <;> rfl

/-- After at least one encryption round LASTRULE is the rule of HB in the last one, which its state of then, now `prev`,
selected. -/
theorem encRounds_lastRule {n : Nat} (hn : 1 ≤ n) (k : Nat) (s : State) :
    (encRounds n k s).lastRule = sel (encRounds n k s).hb.prev := by
  obtain ⟨n, rfl⟩ := Nat.exists_eq_add_of_le' hn
  rw [encRounds_succ]
  rfl

/-- After at least one decryption round LASTRULE is the rule of HA in the last one. -/
theorem decRounds_lastRule {n : Nat} (hn : 1 ≤ n) (k : Nat) (s : State) :
    (decRounds n k s).lastRule = sel (decRounds (n - 1) k s).ha.state := by
  obtain ⟨n, rfl⟩ := Nat.exists_eq_add_of_le' hn
  rw [decRounds_succ]
  rfl

/-- ENC's rounds take a half's keys in order. -/
theorem encRounds_half_roundKeys (h : Half) (s : State) :
    (encRounds s.r 0 s).half h = (s.roundKeys h).foldl (encStep s.w) (s.half h) := by
  rw [encRounds_half, State.roundKeys, List.foldl_map]

/-- The keys DEC takes for half h, from index 2n-1 down, are those ENC takes, in reverse (`45_block_cipher.md` R205). -/
theorem map_range_eq_reverse (key : Nat → Word) (n : Nat) (h : Half) :
    ((List.range n).map fun m => key (2 * n - 1 - (!h.bit).toNat - 2 * m)) =
      ((List.range n).map fun m => key (2 * m + h.bit.toNat)).reverse := by
  refine List.ext_getElem (by simp) fun m hm _ => ?_
  have hlt : m < n := by simpa using hm
  have hindex : 2 * n - 1 - (!h.bit).toNat - 2 * m = 2 * (n - 1 - m) + h.bit.toNat := by
    cases h <;> simp only [Half.bit, Bool.not_true, Bool.not_false, Bool.toNat_true, Bool.toNat_false] <;> omega
  simp [hindex]

/-- DEC's rounds take a half's keys in reverse. -/
theorem decRounds_half_roundKeys (h : Half) (s : State) :
    (decRounds s.r (2 * s.r - 1) s).half h = (s.roundKeys h).reverse.foldl (decStep s.w) (s.half h) := by
  rw [decRounds_half, State.roundKeys, ← map_range_eq_reverse, List.foldl_map]

/-! ## Rounds undone -/

/-- A decryption round undoes an encryption round with the same key on exchanged generations. -/
theorem decStep_exchange_encStep (w : Nat) (g : HalfRegs) (x : Word) :
    decStep w (encStep w g x).exchange x = g.exchange := by
  have hback : morph w (encStep w g x).exchange = (g.xorState x).exchange :=
    mecaStep_exchange w (g.xorState x) (sel (g.xorState x).state)
  rw [decStep, hback]
  simp [HalfRegs.exchange, HalfRegs.xorState, HalfRegs.xorPrev]

/-- An encryption round undoes a decryption round with the same key on exchanged generations. -/
theorem encStep_exchange_decStep (w : Nat) (g : HalfRegs) (x : Word) :
    encStep w (decStep w g x).exchange x = g.exchange := by
  have hkey : (decStep w g x).exchange.xorState x = (morph w g).exchange := by
    simp [decStep, HalfRegs.exchange, HalfRegs.xorState, HalfRegs.xorPrev]
  rw [encStep, hkey]
  exact mecaStep_exchange w g (sel g.state)

/-- If `back` undoes `step` on exchanged generations, a run of `back` over the reversed keys undoes a run of `step`. -/
theorem foldl_reverse_exchange {step back : HalfRegs → Word → HalfRegs}
    (hback : ∀ g x, back (step g x).exchange x = g.exchange) (keys : List Word) (g : HalfRegs) :
    keys.reverse.foldl back (keys.foldl step g).exchange = g.exchange := by
  induction keys generalizing g with
  | nil => rfl
  | cons x keys ih =>
    rw [List.reverse_cons, List.foldl_append, List.foldl_cons (b := g), ih]
    exact hback g x

/-! ## The commands on an idle block -/

/-- ENC on an idle block, for a legal R (`45_block_cipher.md` R203). -/
theorem exec_enc {s : State} (hr : s.running = none) (hR : s.RoundsLegal) :
    exec .enc s = .next ((storeBlock .encrypt (encRounds s.r 0 (loadBlock false s))).setDone true) :=
  exec_of_accepted hr ((roundsCheck_eq_none_iff s).2 hR)

/-- DEC on an idle block, for a legal R (`45_block_cipher.md` R205). -/
theorem exec_dec {s : State} (hr : s.running = none) (hR : s.RoundsLegal) :
    exec .dec s = .next ((storeBlock .decrypt (decRounds s.r (2 * s.r - 1) (loadBlock true s))).setDone true) :=
  exec_of_accepted hr ((roundsCheck_eq_none_iff s).2 hR)

theorem execAll_mload_both {s : State} (hr : s.running = none) (rev : Bool) :
    execAll [.mload .A rev, .mload .B rev] s = .next ((loadBlock rev s).setDone true) := by
  rw [execAll_cons_of_next (exec_mload hr .A rev)]
  exact execAll_cons_of_next (exec_mload (by simpa using hr) .B rev) []

theorem execAll_mstore_both {s : State} (hr : s.running = none) (ord : StoreOrder) :
    execAll [.mstore .A ord, .mstore .B ord] s = .next ((storeBlock ord s).setDone true) := by
  have hrA : ((storeHalf .A ord s).setDone true).running = none := by cases ord <;> exact hr
  rw [execAll_cons_of_next (exec_mstore hr .A ord), execAll_cons_of_next (exec_mstore hrA .B ord)]
  cases ord <;> rfl

/-- ERND 0, ERND 2, ..., ERND 2n-2 after a completed command are n encryption rounds. -/
theorem execAll_ernds {s : State} (hr : s.running = none) {n : Nat} (hn : n ≤ s.params.rmax) :
    execAll ((List.range n).map fun m => .ernd (2 * m)) (s.setDone true) = .next ((encRounds n 0 s).setDone true) := by
  induction n with
  | zero => rfl
  | succ n ih =>
    have hidle : (encRounds n 0 s).running = none := by rw [encRounds_running, hr]
    have hk : 2 * n + 1 < 2 * (encRounds n 0 s).params.rmax := by rw [encRounds_params]; omega
    have hlast := exec_ernd (s := (encRounds n 0 s).setDone true) hidle hk
    rw [List.range_succ, List.map_append, execAll_append_of_next (ih (by omega)), encRounds_succ, Nat.zero_add]
    exact execAll_cons_of_next hlast []

/-- DRND k, DRND k-2, ... after a completed command are decryption rounds, as many as have a key. -/
theorem execAll_drnds {s : State} (hr : s.running = none) {n k : Nat} (hk : k < 2 * s.params.rmax)
    (hn : 2 * n ≤ k + 1) :
    execAll ((List.range n).map fun m => .drnd (k - 2 * m)) (s.setDone true) =
      .next ((decRounds n k s).setDone true) := by
  induction n with
  | zero => rfl
  | succ n ih =>
    have hidle : (decRounds n k s).running = none := by rw [decRounds_running, hr]
    have hlt : k - 2 * n < 2 * (decRounds n k s).params.rmax := by rw [decRounds_params]; omega
    have hlast := exec_drnd (s := (decRounds n k s).setDone true) hidle (by omega) hlt
    rw [List.range_succ, List.map_append, execAll_append_of_next (ih (by omega)), decRounds_succ]
    exact execAll_cons_of_next hlast []

theorem storeBlock_setDone (ord : StoreOrder) (s : State) (b : Bool) :
    (storeBlock ord (s.setDone b)).setDone b = (storeBlock ord s).setDone b := by cases ord <;> rfl

/-! ## The block of one half -/

/-- The part of the block that belongs to half h, as the half that ENC builds from it (`45_block_cipher.md` R203). -/
def State.blockHalf (s : State) (h : Half) : HalfRegs := seed (s.pair h).1 (s.pair h).2 false

theorem blk_eq_iff_blockHalf_A (s t : State) :
    t.blockHalf .A = s.blockHalf .A ↔ t.blk0 = s.blk0 ∧ t.blk1 = s.blk1 := by
  simp [State.blockHalf, State.pair, seed, and_comm]

theorem blk_eq_iff_blockHalf_B (s t : State) :
    t.blockHalf .B = s.blockHalf .B ↔ t.blk2 = s.blk2 ∧ t.blk3 = s.blk3 := by
  simp [State.blockHalf, State.pair, seed, and_comm]

theorem half_loadBlock (h : Half) (s : State) :
    (loadBlock false s).half h = s.blockHalf h ∧ (loadBlock true s).half h = (s.blockHalf h).exchange := by
  cases h <;> exact ⟨rfl, rfl⟩

theorem blockHalf_storeBlock (h : Half) (s : State) :
    (storeBlock .encrypt s).blockHalf h = s.half h ∧
      (storeBlock .decrypt s).blockHalf h = (s.half h).exchange := by
  cases h <;> exact ⟨rfl, rfl⟩

/-- ENC on the part of half h: its rounds over the half's keys (`45_block_cipher.md` R208). -/
theorem blockHalf_enc (h : Half) (s : State) :
    (commandEffect .enc s).blockHalf h = (s.roundKeys h).foldl (encStep s.w) (s.blockHalf h) := by
  rw [← (half_loadBlock h s).1]
  exact (blockHalf_storeBlock h _).1.trans (encRounds_half_roundKeys h (loadBlock false s))

/-- DEC on the part of half h: the generations exchanged, its rounds over the half's keys in reverse, and the
generations exchanged again (`45_block_cipher.md` R205, R208). -/
theorem blockHalf_dec (h : Half) (s : State) :
    (commandEffect .dec s).blockHalf h =
      ((s.roundKeys h).reverse.foldl (decStep s.w) (s.blockHalf h).exchange).exchange := by
  rw [← (half_loadBlock h s).2]
  exact (blockHalf_storeBlock h _).2.trans
    (congrArg HalfRegs.exchange (decRounds_half_roundKeys h (loadBlock true s)))

/-- An idle block with a legal R is one after any command too, and the next ENC or DEC is accepted. -/
theorem commandEffect_ready {s : State} (hr : s.running = none) (hR : s.RoundsLegal) (i : Instr) :
    ((commandEffect i s).setDone true).running = none ∧ ((commandEffect i s).setDone true).RoundsLegal := by
  rw [commandEffect_frame]
  exact ⟨hr, hR⟩

theorem commandEffect_w (i : Instr) (s : State) : (commandEffect i s).w = s.w := by
  rw [State.w, commandEffect_params, State.w]

/-- ENC leaves the schedule and R as they were (`45_block_cipher.md` R209). -/
theorem roundKeys_enc (h : Half) (s : State) : (commandEffect .enc s).roundKeys h = s.roundKeys h := by
  simp [commandEffect, State.roundKeys, State.r]

/-- DEC leaves the schedule and R as they were (`45_block_cipher.md` R209). -/
theorem roundKeys_dec (h : Half) (s : State) : (commandEffect .dec s).roundKeys h = s.roundKeys h := by
  simp [commandEffect, State.roundKeys, State.r]

theorem roundKeys_congr {s s' : State} {h : Half} (hr : s.r = s'.r)
    (hkeys : ∀ m, m < s.r → s.rkAt (2 * m + h.bit.toNat) = s'.rkAt (2 * m + h.bit.toNat)) :
    s.roundKeys h = s'.roundKeys h := by
  rw [State.roundKeys, State.roundKeys, ← hr]
  exact List.map_congr_left fun m hm => hkeys m (List.mem_range.1 hm)

/-- DEC undoes ENC on each half's part of the block (`45_block_cipher.md` R210). -/
theorem blockHalf_dec_enc (h : Half) (s : State) :
    (commandEffect .dec ((commandEffect .enc s).setDone true)).blockHalf h = s.blockHalf h := by
  have hkeys : ((commandEffect .enc s).setDone true).roundKeys h = s.roundKeys h := roundKeys_enc h s
  have hblk : ((commandEffect .enc s).setDone true).blockHalf h = _ := blockHalf_enc h s
  rw [blockHalf_dec, hkeys, hblk, State.setDone_w, commandEffect_w,
    foldl_reverse_exchange (decStep_exchange_encStep s.w)]
  rfl

/-- ENC undoes DEC on each half's part of the block (`45_block_cipher.md` R212). -/
theorem blockHalf_enc_dec (h : Half) (s : State) :
    (commandEffect .enc ((commandEffect .dec s).setDone true)).blockHalf h = s.blockHalf h := by
  have hkeys : ((commandEffect .dec s).setDone true).roundKeys h = s.roundKeys h := roundKeys_dec h s
  have hblk : ((commandEffect .dec s).setDone true).blockHalf h = _ := blockHalf_dec h s
  have hback := foldl_reverse_exchange (encStep_exchange_decStep s.w) (s.roundKeys h).reverse (s.blockHalf h).exchange
  rw [List.reverse_reverse] at hback
  rw [blockHalf_enc, hkeys, hblk, State.setDone_w, commandEffect_w, hback]
  rfl

end Sys2Proof.Machine
end

section
/-! The statements about the block cipher (`45_block_cipher.md`), settled. -/

open Sys2Proof Sys2Proof.Machine

/-- Settles O38: the rounds change HA, HB and LASTRULE only, and each half is the fold over its own keys. -/
theorem encRunsEachHalf : Obligations.EncRunsEachHalf := by
  intro s hr hR n round a b
  have ha : (encRounds s.r 0 (loadBlock false s)).ha = a := encRounds_half n .A (loadBlock false s)
  have hb : (encRounds s.r 0 (loadBlock false s)).hb = b := encRounds_half n .B (loadBlock false s)
  rw [exec_enc hr hR, encRounds_frame, encRounds_lastRule hR.1, ha, hb]
  rfl

/-- Settles O39: the rounds change HA, HB and LASTRULE only, each half is the fold over its own keys, and the rule of
the last round is that of HA before it. -/
theorem decRunsEachHalf : Obligations.DecRunsEachHalf := by
  intro s hr hR n w round a b beforeLast
  have ha : (decRounds s.r (2 * s.r - 1) (loadBlock true s)).ha = a := decRounds_half n _ .A (loadBlock true s)
  have hb : (decRounds s.r (2 * s.r - 1) (loadBlock true s)).hb = b := decRounds_half n _ .B (loadBlock true s)
  have hbefore : (decRounds (s.r - 1) (2 * s.r - 1) (loadBlock true s)).ha = beforeLast :=
    decRounds_half (n - 1) _ .A (loadBlock true s)
  rw [exec_dec hr hR, decRounds_frame, decRounds_lastRule hR.1, ha, hb, hbefore]
  rfl

/-- Settles O40: loads, rounds and stores, each list of unit commands to the state its part of ENC makes. -/
theorem encIsUnitSequence : Obligations.EncIsUnitSequence := by
  intro s hr hR
  have hrounds := execAll_ernds (s := loadBlock false s) hr (n := s.r) hR.2
  rw [exec_enc hr hR, List.append_assoc, execAll_append_of_next (execAll_mload_both hr false)]
  refine .trans ?_ (execAll_append_of_next hrounds _).symm
  rw [execAll_mstore_both (by simpa using hr), storeBlock_setDone]

/-- Settles O41: loads, rounds and stores, each list of unit commands to the state its part of DEC makes. -/
theorem decIsUnitSequence : Obligations.DecIsUnitSequence := by
  intro s hr hR
  have hk : 2 * s.r - 1 < 2 * (loadBlock true s).params.rmax := by
    have hle : s.r ≤ (loadBlock true s).params.rmax := hR.2
    have hpos := hR.1
    omega
  have hrounds := execAll_drnds (s := loadBlock true s) hr (n := s.r) hk (by omega)
  rw [exec_dec hr hR, List.append_assoc, execAll_append_of_next (execAll_mload_both hr true)]
  refine .trans ?_ (execAll_append_of_next hrounds _).symm
  rw [execAll_mstore_both (by simpa using hr), storeBlock_setDone]

/-- Settles O42: DEC runs each half's rounds backwards from the exchanged generations. -/
theorem decUndoesEnc : Obligations.DecUndoesEnc := by
  intro s hr hR
  obtain ⟨hrt, hRt⟩ := commandEffect_ready hr hR .enc
  refine ⟨_, _, exec_enc hr hR, exec_dec hrt hRt, ?_⟩
  obtain ⟨h0, h1⟩ := (blk_eq_iff_blockHalf_A s _).1 (blockHalf_dec_enc .A s)
  obtain ⟨h2, h3⟩ := (blk_eq_iff_blockHalf_B s _).1 (blockHalf_dec_enc .B s)
  exact ⟨h0, h1, h2, h3⟩

/-- Settles O43: ENC runs each half's rounds forwards from the exchanged generations. -/
theorem encUndoesDec : Obligations.EncUndoesDec := by
  intro s hr hR
  obtain ⟨hrt, hRt⟩ := commandEffect_ready hr hR .dec
  refine ⟨_, _, exec_dec hr hR, exec_enc hrt hRt, ?_⟩
  obtain ⟨h0, h1⟩ := (blk_eq_iff_blockHalf_A s _).1 (blockHalf_enc_dec .A s)
  obtain ⟨h2, h3⟩ := (blk_eq_iff_blockHalf_B s _).1 (blockHalf_enc_dec .B s)
  exact ⟨h0, h1, h2, h3⟩

/-- Settles O44: each half's part of the block after ENC or DEC is a function of that part and of the half's keys. -/
theorem halvesNeverInteract : Obligations.HalvesNeverInteract := by
  intro s s' i hr hr' hR hp hrounds hi
  have hn : s.r = s'.r := congrArg BitVec.toNat hrounds
  have hw : s.w = s'.w := congrArg (fun p : Params => p.width.bits) hp
  have hR' : s'.RoundsLegal := by
    obtain ⟨hpos, hle⟩ := hR
    exact ⟨hn ▸ hpos, by rw [← hn, ← hp]; exact hle⟩
  have hhalf (h : Half) (hkeys : s.roundKeys h = s'.roundKeys h) (hblk : s.blockHalf h = s'.blockHalf h) :
      (commandEffect i s).blockHalf h = (commandEffect i s').blockHalf h := by
    obtain rfl | rfl := hi
    · rw [blockHalf_enc, blockHalf_enc, hw, hkeys, hblk]
    · rw [blockHalf_dec, blockHalf_dec, hw, hkeys, hblk]
  have hcheck {u : State} (hu : u.RoundsLegal) : check i u = none := by
    obtain rfl | rfl := hi <;> exact (roundsCheck_eq_none_iff u).2 hu
  refine ⟨_, _, exec_of_accepted hr (hcheck hR), exec_of_accepted hr' (hcheck hR'), fun h0 h1 hkeys => ?_,
    fun h2 h3 hkeys => ?_⟩
  · exact (blk_eq_iff_blockHalf_A _ _).1
      (hhalf .A (roundKeys_congr hn hkeys) ((blk_eq_iff_blockHalf_A _ _).2 ⟨h0, h1⟩))
  · exact (blk_eq_iff_blockHalf_B _ _).1
      (hhalf .B (roundKeys_congr hn hkeys) ((blk_eq_iff_blockHalf_B _ _).2 ⟨h2, h3⟩))

/-- Settles O35: the pair of key indexes passes check 5, and the effect is `encRound`. -/
theorem erndIsOneRound : Obligations.ErndIsOneRound := fun _ _ hr hk => exec_ernd hr hk

/-- Settles O36: the pair of key indexes passes check 5, and the effect is `decRound`. -/
theorem drndIsOneRound : Obligations.DrndIsOneRound := fun _ _ hr hpos hk => exec_drnd hr hpos hk

end

section
/-! The statement about the control command (`46_control.md`), settled. -/

open Sys2Proof Sys2Proof.Machine

/-- Settles O19: no check refuses NOP, and its effect is the identity, so only the completion's DONE remains. -/
theorem nopOnlyCompletes : Obligations.NopOnlyCompletes := fun s hr =>
  have accepted : check .nop s = none := rfl
  exec_of_accepted hr accepted

end

section
/-! Laws of the command-level event and of a command issued to a busy block (`60_exceptions.md`). -/

namespace Sys2Proof.Machine

/-- A command-level event ends in a next state: a decode error is recorded, and a command is issued. -/
theorem commandEvent_answers (v : Word) (s : State) : ∃ t, commandEvent v s = .next t := by
  cases hd : decode v with
  | error e => exact ⟨_, by rw [commandEvent, hd]⟩
  | ok i =>
    simp only [commandEvent, hd, exec_eq_issue]
    exact issue_answers _ _ _

/-- A command-level transition of a busy block is dropped with ERR_BUSY (`30_encoding.md` R111). -/
theorem exec_of_busy {s : State} (h : s.running ≠ none) (i : Instr) : exec i s = .next (s.recordErr .busy) := by
  rw [exec_eq_issue, issue_of_busy _ _ h]

end Sys2Proof.Machine
end

section
/-! The statements about errors and the interrupt output (`60_exceptions.md`), settled. -/

open Sys2Proof Sys2Proof.Machine

/-- Settles O7: of the events, only a command-level one could be refused, and it is issued or recorded as an error. -/
theorem everyStepAnswersNext : Obligations.EveryStepAnswersNext := by
  intro s
  cases hi : s.inputs with
  | nil => exact ⟨_, step_of_no_input hi⟩
  | cons e rest =>
    cases e with
    | access a => exact ⟨_, step_of_access hi⟩
    | clock => exact ⟨_, step_of_clock hi⟩
    | rst a => exact ⟨_, step_of_input hi⟩
    | command v => exact step_of_command hi ▸ commandEvent_answers v _

/-- Settles O15: the port's hazard rule drops the raw write, and the issue protocol the command, before the value is
decoded. -/
theorem busyDropsEveryCommand : Obligations.BusyDropsEveryCommand := by
  refine ⟨fun s v rest e hrun he hi => ?_, fun i s hrun => exec_of_busy hrun i⟩
  have hrun : ((clockEdge s).afterInput rest).running ≠ none := hrun
  rcases he with rfl | rfl
  · have hreg : regAt s.params 0x020 = .cmd := rfl
    rw [step_of_write hi rfl, hreg, writeAccess_of_busy hrun (by decide) (by decide)]
    rfl
  · rw [step_of_command hi, commandEvent_of_busy hrun]
    rfl

/-- Settles O55: the disjunction of R240, read as a proposition. -/
theorem interruptIsLevelOfPendingSources : Obligations.InterruptIsLevelOfPendingSources := by
  intro s
  rw [State.irq, Bool.or_eq_true, Bool.and_eq_true, Bool.and_eq_true, bne_iff_ne]

end

section
/-! Laws of the hazards (`70_reset_and_hazards.md`): what a command with cycles left leaves readable, the writes that
take effect while it runs, and what its latency is a function of. -/

namespace Sys2Proof.Machine

/-! ## Reads while a command runs -/

/-- One cycle of a running command changes no register outside its write set, STATUS apart: the rounds of ENC and DEC
work in the halves and LASTRULE, and KSRUN in the sequencer's own state. -/
theorem readReg_advance {r : Reg} {task : Task} {n : Nat} (hs : r ≠ .status) (hr : r ∉ writeSet task.op n) (left : Nat)
    (s : State) : readReg r (advance task left s) = readReg r s := by
  cases task with
  | unit i => exact readReg_of_control hs rfl
  | enc rnd k =>
    obtain ⟨hA, hB, hl, -⟩ := not_mem_of_not_mem_enc hr
    rw [advance]
    split
    · exact (readReg_of_control hs rfl).trans (readReg_encRound s hA hB hl k)
    · exact readReg_of_control hs rfl
  | dec rnd k =>
    obtain ⟨hA, hB, hl, -⟩ := not_mem_of_not_mem_enc (n := n) hr
    rw [advance]
    split
    · exact (readReg_of_control hs rfl).trans (readReg_decRound s hA hB hl k)
    · exact readReg_of_control hs rfl
  | ksrun q =>
    rw [advance]
    split
    · exact readReg_of_control hs rfl
    · split <;> exact readReg_of_control hs rfl

/-- At an edge that leaves cycles, STATUS and every register outside the running command's write set keep their
values. -/
theorem readReg_clockEdge {r : Reg} {s : State} {q : Running} {n : Nat} (hq : s.running = some q) (hl : 2 ≤ q.left)
    (hr : r ∉ writeSet q.task.op n) : readReg r (clockEdge s) = readReg r s := by
  by_cases hs : r = .status
  · obtain ⟨task', -, g, g', rule, hedge⟩ := clockEdge_of_running hq hl
    rw [hs, hedge]
    simp [readReg, statusImage, State.busy, hq]
  · rw [clockEdge_of_advance hq (by omega)]
    exact readReg_advance hs hr _ s

/-- At an edge that leaves cycles, what is not in the running command's write set is not in flight
(`70_reset_and_hazards.md` R271). -/
theorem inFlight_clockEdge {r : Reg} {s : State} {q : Running} (hq : s.running = some q) (hl : 2 ≤ q.left)
    (hr : r ∉ writeSet q.task.op (ksLength s)) : inFlight r (clockEdge s) = false := by
  obtain ⟨task', hop, g, g', rule, hedge⟩ := clockEdge_of_running hq hl
  rw [hedge]
  refine decide_eq_false fun hmem => hr ?_
  rw [← hop]
  exact hmem

/-! ## Writes while a command runs -/

/-- CTRL is written busy or not (`70_reset_and_hazards.md` R270). -/
theorem writeAccess_ctrl (v : Word) (s : State) : writeAccess .ctrl v s = s.writeCtrl v := by
  obtain ⟨-, hne, -⟩ | ⟨-, he⟩ := writeAccess_cases .ctrl v s
  · exact absurd rfl hne
  · exact he

/-- Only offset 0x008 is CTRL. -/
theorem addr_of_regAt_ctrl {p : Params} {addr : BitVec 12} (h : regAt p addr = .ctrl) : addr = 0x008 := by
  have hmem : (addr.toNat, Reg.ctrl) ∈ fixedMap := by
    simpa [h] using regAt_cases p addr
  exact BitVec.eq_of_toNat_eq (by simpa [fixedMap] using hmem)

/-! ## Latency -/

/-- LAT as a function of opcode and W, of R for KSRUN, ENC and DEC, and of KEYLEN for KSRUN
(`70_reset_and_hazards.md` R276). -/
theorem latency_eq (i : Instr) (s : State) :
    latency i s = 1 + Config.latencyExtra i.opcode s.params.width
      (if i.opcode ∈ [0x20, 0x32, 0x33] then s.r else 0) (if i.opcode = 0x20 then s.k else 0) := by
  cases i <;> rfl

theorem eq_ksrun_of_opcode {i : Instr} (h : i.opcode = 0x20) : i = .ksrun := by
  cases i with
  | ksrun => rfl
  | _ => cases h

theorem eq_of_opcode_mem {i : Instr} (h : i.opcode ∈ [0x20, 0x32, 0x33]) : i = .ksrun ∨ i = .enc ∨ i = .dec := by
  cases i with
  | ksrun => exact .inl rfl
  | enc => exact .inr (.inl rfl)
  | dec => exact .inr (.inr rfl)
  | _ => simp [Instr.opcode] at h

end Sys2Proof.Machine
end

section
/-! The statements about reset and hazards (`70_reset_and_hazards.md`), settled. -/

open Sys2Proof Sys2Proof.Machine

/-- Settles O48: the sequencer's part of the edge leaves the register as it was, and it is not in flight; STATUS and CTRL
are in no write set. -/
theorem busyReadOutsideWriteSet : Obligations.BusyReadOutsideWriteSet := by
  intro s q addr rest hq hl hal hi hreg
  have hr : regAt s.params addr ∉ writeSet q.task.op (ksLength s) := by
    rcases hreg with h | h | h
    · rw [h]; exact not_mem_writeSet rfl (by decide) (by decide) _ _
    · rw [h]; exact not_mem_writeSet rfl (by decide) (by decide) _ _
    · exact h
  rw [step_of_read hi hal (inFlight_clockEdge hq hl hr), readReg_clockEdge hq hl hr]

/-- Settles O49: CTRL and STATUS, each at one offset, are written busy or not, and the hazard rule drops the rest. -/
theorem writesWhileBusy : Obligations.WritesWhileBusy := by
  intro s addr v rest hrun hal hi u
  by_cases hctrl : addr = 0x008
  · have hreg : regAt s.params 0x008 = .ctrl := rfl
    rw [if_pos hctrl, step_of_write hi hal, hctrl, hreg, writeAccess_ctrl]
    rfl
  · rw [if_neg hctrl]
    by_cases hstatus : addr = 0x010
    · rw [if_pos hstatus]
      subst hstatus
      exact (statusReadAndWrite s v rest).2 hi
    · rw [if_neg hstatus, step_of_write hi hal,
        writeAccess_of_busy (s := u.afterInput rest) hrun (mt addr_of_regAt_ctrl hctrl)
          (mt addr_of_regAt_status hstatus)]
      rfl

/-- Settles O60: the sequencer's part of the edge comes first and leaves the command running, and no event but reset
then touches more than the port, the interrupt enables and STATUS. -/
theorem hostCannotStallTheSequencer : Obligations.HostCannotStallTheSequencer := by
  refine ⟨fun s hidle => clockEdge_idle hidle, fun s q e rest hq hl he hi => ?_⟩
  obtain ⟨task', hop, g, g', rule, hedge⟩ := clockEdge_of_running hq hl
  have hrun : (clockEdge s).running = some ⟨task', q.left - 1⟩ := by rw [hedge]
  obtain ⟨t, hstep, -, ht⟩ := step_of_running (hrun ▸ Option.some_ne_none _) he hi
  exact ⟨⟨_, hrun, hop, Nat.sub_add_cancel (by omega)⟩, t, hstep, ht⟩

/-- Settles O14: opcode and W fix LAT but for R and KEYLEN, which it reads only where they are given to be equal. -/
theorem latencyDependsOnNoData : Obligations.LatencyDependsOnNoData := by
  intro i i' s s' hop hw hrounds hkeylen
  refine ⟨one_le_latency i s, ?_⟩
  have hr : (if i.opcode ∈ [0x20, 0x32, 0x33] then s.r else 0) = if i.opcode ∈ [0x20, 0x32, 0x33] then s'.r else 0 :=
    if_ctx_congr Iff.rfl (fun h => congrArg BitVec.toNat (hrounds (eq_of_opcode_mem h))) fun _ => rfl
  have hk : (if i.opcode = 0x20 then s.k else 0) = if i.opcode = 0x20 then s'.k else 0 :=
    if_ctx_congr Iff.rfl (fun h => congrArg BitVec.toNat (hkeylen (eq_ksrun_of_opcode h))) fun _ => rfl
  rw [latency_eq, latency_eq, ← hop, ← hw, hr, hk]

/-- Settles O56: a reset edge runs neither the sequencer nor the access, and leaves `State.resetOf` and the port's
inputs. -/
theorem resetEdgeRestoresResetState : Obligations.ResetEdgeRestoresResetState := by
  intro s a rest hi
  rw [step_of_input hi]
  rfl

end
